-- ==== Sys2Proof/Word.lean ====
section
/-! DEFINITION. The words of the block and of its three ports: bytes, millisecond counts, the 144-bit
request word (R53), the 131-bit response word (R57) and the 26-bit bus-transaction word (R58). -/

namespace Sys2Proof

/-- An 8-bit value: a register, a brightness, a weight's range, a register address (R9, R34). -/
abbrev Byte := BitVec 8

/-- A `u64` count of milliseconds (R53). -/
abbrev Millis := BitVec 64

/-- A request word (R53). -/
abbrev RequestWord := BitVec 144

/-- A response word (R57). -/
abbrev ResponseWord := BitVec 131

/-- A bus-transaction word (R58). -/
abbrev BusWord := BitVec 26

/-- A word at one of the block's two command ports.  R63: a request is 144 bits, a bus transaction 26. -/
inductive PortWord where
  | request (w : RequestWord)
  | bus (w : BusWord)
  deriving DecidableEq, Repr

end Sys2Proof
end

