-- ==== Sys2Proof/Config.lean ====
section
/-! DEFINITION. The parameters of the model (R7, R8) and its free values: constants without a body, of which
nothing can be proved. -/

namespace Sys2Proof

/-- One member `(c, w, tag)` of a colour group (R7).  The weight is a plain number, because CFG_VALID (R94)
checks its range; the tag is an opaque colour identifier that no rule reads. -/
structure Member where
  channel : Nat
  weight : Nat
  tag : Nat
  deriving DecidableEq, Repr, Inhabited

/-- A logical LED: one channel, or a weighted group of channels (R7, R11). -/
inductive Led where
  | single (channel : Nat)
  | group (members : List Member)
  deriving DecidableEq, Repr, Inhabited

/-- The implementation parameters of R7 that are not draws.  `settle` is `T_SETTLE_US - 200`, so that the bounds
of R116 hold by type. `hasCache` is listed by R7 and read by no rule (D23). -/
structure Params where
  channelCount : Nat
  leds : List Led
  regDefault : Vector Byte 10
  settle : Fin 101
  retainOnPowerOff : Bool
  hasCache : Bool
  deriving DecidableEq, Repr, Inhabited

/-- `LED_COUNT`, the length of `LEDS` (R7). -/
def Params.ledCount (p : Params) : Nat := p.leds.length

/-- `T_SETTLE_US` in microseconds, 200 to 300 (R7, R116). -/
def Params.settleUs (p : Params) : Nat := 200 + p.settle.val

/-- `MAX_BRIGHTNESS`, advertised to the host framework and not enforced (R7, D16). -/
def maxBrightness : Nat := 192

/-- What the transport or the power source answers (R36, R45). -/
inductive Result where
  | ok
  | err
  deriving DecidableEq, Repr, Inhabited

/-- One draw of the oracles (R7, D18 to D20): the result of a bus transaction or power call and, for a bus
transaction whose effect R37 leaves open, whether the effect is applied. -/
structure Draw where
  result : Result
  applied : Bool
  deriving DecidableEq, Repr, Inhabited

/-- What a blink request draws when its times lie outside the exactness band (R85): a step count in 1..126
(held less one), a duty code, and the two times returned. -/
structure WildTiming where
  stepsLessOne : Fin 126
  code : Byte
  onOut : Millis
  offOut : Millis
  deriving DecidableEq, Repr, Inhabited

/-- DESIGN CHOICE (log 1, safe): the parameters of the chip that starts at reset; the spec leaves them to the
platform (R7, R8). -/
opaque Config.platform : Params

/-- DESIGN CHOICE (log 3, safe): `PSRC_ON` when the block starts, OPEN (R13, R113). -/
opaque Config.powerAtStart : Bool

/-- DESIGN CHOICE (log 2, safe): `BusOracle`, `PowerOracle` and the effect draws of R37, by the number of the
draw. -/
opaque Config.oracle : Nat → Draw

/-- DESIGN CHOICE (log 10, safe): the draws of R85, by the requested times and the number of the draw. -/
opaque Config.wildTiming : Millis → Millis → Nat → WildTiming

/-- DESIGN CHOICE (log 18, safe): whether a chip reset that no settle wait followed is over when the chip is looked at, by
the number of draws so far: it is over after at most `T_SETTLE_US` (R111), and the model has no clock. -/
opaque Config.resetOver : Nat → Bool

end Sys2Proof
end

