-- ==== Sys2Proof/Syntax.lean ====
section
/-! DEFINITION. The instructions: one constructor for each row of spec/opcode_table.json, and the vocabulary of the
response and event ports. -/

namespace Sys2Proof

/-- The rows of the opcode table.  Every request carries ON_MS and OFF_MS, because every ILLEGAL_REQUEST answer
returns them whatever the OP (R57); the other fields a request ignores are not part of the instruction (R53). -/
inductive Instr where
  /-- SET_BRIGHTNESS L<target>, <value> (R80). -/
  | setBrightness (target : BitVec 4) (value : Byte) (onMs offMs : Millis)
  /-- SET_BLINK L<target>, <on_ms>, <off_ms> (R93). -/
  | setBlink (target : BitVec 4) (onMs offMs : Millis)
  /-- ATTACH (R95). -/
  | attach (onMs offMs : Millis)
  /-- DETACH (R96). -/
  | detach (onMs offMs : Millis)
  /-- SHUTDOWN (R97). -/
  | shutdown (onMs offMs : Millis)
  /-- RESERVED_OP0: OP 0x0 (R61). -/
  | reservedOp0 (onMs offMs : Millis)
  /-- RESERVED_OP6_7: OP 0x6 or 0x7, the OP's low bit (R61). -/
  | reservedOp67 (opLow : BitVec 1) (onMs offMs : Millis)
  /-- RESERVED_OP8_F: OP 0x8 to 0xF, the OP's low three bits (R61). -/
  | reservedOp8F (opLow : BitVec 3) (onMs offMs : Millis)
  /-- RESET_CMD: WRITE 0x07 to RESET_CTRL (R39, R59). -/
  | resetCmd
  /-- SLEEP_CMD: WRITE 0x08 to RESET_CTRL (R59, R69). -/
  | sleepCmd
  /-- WAKE_CMD: WRITE 0x00 to RESET_CTRL (R59, R68). -/
  | wakeCmd
  /-- WR_PERIOD: WRITE to FLASH_PERIOD (R59, R91). -/
  | wrPeriod (steps : Byte)
  /-- WR_PWM1: WRITE to PWM1_TIMER (R59, R91). -/
  | wrPwm1 (code : Byte)
  /-- UPD_CTRL: masked UPDATE of CHANNEL_CTRL (R59, R74, R76). -/
  | updCtrl (mask data : Byte)
  /-- WR_ILED0: WRITE to ILED[0] (R59, R77). -/
  | wrIled0 (code : Byte)
  /-- WR_ILED1: WRITE to ILED[1] (R59, R77). -/
  | wrIled1 (code : Byte)
  /-- WR_ILED2: WRITE to ILED[2] (R59, R77). -/
  | wrIled2 (code : Byte)
  /-- WR_ILED3: WRITE to ILED[3], 4-channel chips only (R59, R77). -/
  | wrIled3 (code : Byte)
  deriving DecidableEq, Repr

/-- The pseudo-request `LED_OFF L<t>` (R65). -/
def Instr.ledOff (t : BitVec 4) : Instr := .setBrightness t 0#8 0#64 0#64

/-- The pseudo-request `BLINK_DEFAULT L<t>` (R65). -/
def Instr.blinkDefault (t : BitVec 4) : Instr := .setBlink t 0#64 0#64

/-- The pseudo-request `BLINK_STOP L<t>` (R65). -/
def Instr.blinkStop (t : BitVec 4) : Instr := .setBlink t 1#64 0#64

/-- Why a 26-bit word is none of the bus-transaction forms of R59. -/
inductive DecodeError where
  /-- KIND `10`, READ: never emitted (R40, R58). -/
  | readKind
  /-- KIND `11`: reserved (R58). -/
  | reservedKind
  /-- A WRITE whose MASK is not 0xFF (R58). -/
  | writeMask
  /-- A WRITE to RESET_CTRL of another byte than 0x07, 0x08 or 0x00 (R24). -/
  | resetCode
  /-- A WRITE to PWM2_TIMER, CHANNEL_CTRL or RISE_FALL: never issued (R27, R28, R29). -/
  | neverWritten
  /-- An UPDATE of another register than CHANNEL_CTRL: never issued (R59). -/
  | neverUpdated
  /-- A WRITE to an address at which no chip has a register (R34). -/
  | noRegister
  deriving DecidableEq, Repr

/-- The STATUS of a response (R57, R98). -/
inductive Status where
  | ok
  | busError
  | powerError
  | configError
  | illegalRequest
  deriving DecidableEq, Repr

/-- A response (R57). -/
structure Response where
  status : Status
  onOut : Millis
  offOut : Millis
  deriving DecidableEq, Repr

/-- The two kinds of bus transaction the block emits (R36, R58). -/
inductive BusKind where
  | write
  | update
  deriving DecidableEq, Repr

/-- The two calls of the power-source port (R45). -/
inductive PowerOp where
  | enable
  | disable
  deriving DecidableEq, Repr

/-- One event of the trace an observer sees (R46). -/
inductive Event where
  | bus (kind : BusKind) (addr mask data : Byte) (result : Result)
  | pwr (op : PowerOp) (result : Result)
  | wait (us : Nat)
  deriving DecidableEq, Repr

end Sys2Proof
end

