-- ==== Sys2Proof/WellFormed.lean ====
section
/-! DEFINITION. Which instructions the block itself can emit or the host can present (R59, R61): every request word
is a defined request, and a bus transaction carries only the data R59 lists. -/

namespace Sys2Proof

/-- The mask of channel `c`'s control field: `(0b11 << 2c) & 0xFF` (R60). -/
def fieldMask (c : Nat) : Byte := 3#8 <<< (2 * c)

/-- Whether field `c` of the byte `b` is all ones or all zeros. -/
def wholeField (b : Byte) (c : Nat) : Bool :=
  b &&& fieldMask c == 0#8 || b &&& fieldMask c == fieldMask c

/-- R59: the mask of UPD_CTRL is a non-empty union of whole fields of channels of a chip of `n` channels. -/
def ctrlMaskOk (n : Nat) (m : Byte) : Bool :=
  m != 0#8 && (List.range 4).all fun c => wholeField m c && (c < n || m &&& fieldMask c == 0#8)

/-- R28, R59: the data of UPD_CTRL lie inside the mask, and no field is `11`. -/
def ctrlDataOk (m v : Byte) : Bool :=
  v &&& ~~~m == 0#8 && (List.range 4).all fun c => v &&& fieldMask c != fieldMask c

/-- The instructions that are well formed on a chip of `n` channels: every request (R53, R61), and the bus
transactions with the data of R59. -/
def Instr.wellFormed (n : Nat) : Instr → Bool
  | .setBrightness _ _ _ _ => true
  | .setBlink _ _ _ => true
  | .attach _ _ => true
  | .detach _ _ => true
  | .shutdown _ _ => true
  | .reservedOp0 _ _ => true
  | .reservedOp67 _ _ _ => true
  | .reservedOp8F _ _ _ => true
  | .resetCmd => true
  | .sleepCmd => true
  | .wakeCmd => true
  | .wrPeriod steps => 1 ≤ steps.toNat && steps.toNat ≤ 126
  | .wrPwm1 _ => true
  | .updCtrl m v => ctrlMaskOk n m && ctrlDataOk m v
  | .wrIled0 code => code.toNat ≤ 254
  | .wrIled1 code => code.toNat ≤ 254
  | .wrIled2 code => code.toNat ≤ 254
  | .wrIled3 code => code.toNat ≤ 254 && n == 4

end Sys2Proof
end

