-- ==== Sys2Proof/Decode.lean ====
section
/-! DEFINITION. Decoding of request and bus-transaction words, the encoder, the response word, and the assembler text
(30_encoding.md). -/

namespace Sys2Proof

/-- The instruction of a request word (R53, R54, R61).  Total: every OP has a meaning. -/
def decodeRequest (w : RequestWord) : Instr :=
  let op := w.extractLsb' 0 4
  let target := w.extractLsb' 4 4
  let value := w.extractLsb' 8 8
  let onMs := w.extractLsb' 16 64
  let offMs := w.extractLsb' 80 64
  match op.toNat with
  | 0 => .reservedOp0 onMs offMs
  | 1 => .setBrightness target value onMs offMs
  | 2 => .setBlink target onMs offMs
  | 3 => .attach onMs offMs
  | 4 => .detach onMs offMs
  | 5 => .shutdown onMs offMs
  | 6 => .reservedOp67 0#1 onMs offMs
  | 7 => .reservedOp67 1#1 onMs offMs
  | _ => .reservedOp8F (op.extractLsb' 0 3) onMs offMs

/-- The WRITE form at address `a` with data `v` (R59).  DESIGN CHOICE (log 7): a period of 0 or 127..255 and a current code of
255, which the block never writes (R25, R30, R59), decode too. -/
def decodeWrite (a v : Byte) : Except DecodeError Instr :=
  match a.toNat with
  | 0 =>
    match v.toNat with
    | 0 => .ok .wakeCmd
    | 7 => .ok .resetCmd
    | 8 => .ok .sleepCmd
    | _ => .error .resetCode
  | 1 => .ok (.wrPeriod v)
  | 2 => .ok (.wrPwm1 v)
  | 3 => .error .neverWritten
  | 4 => .error .neverWritten
  | 5 => .error .neverWritten
  | 6 => .ok (.wrIled0 v)
  | 7 => .ok (.wrIled1 v)
  | 8 => .ok (.wrIled2 v)
  | 9 => .ok (.wrIled3 v)
  | _ => .error .noRegister

/-- The form of a bus-transaction word (R58, R59).  A word that is none of the forms is rejected by name (log 12).  DESIGN
CHOICE (log 7): an UPDATE of CHANNEL_CTRL decodes with any mask and data, a field `11` or part of a field too (R28, R59). -/
def decodeBus (w : BusWord) : Except DecodeError Instr :=
  let kind := w.extractLsb' 24 2
  let addr := w.extractLsb' 16 8
  let mask := w.extractLsb' 8 8
  let data := w.extractLsb' 0 8
  match kind.toNat with
  | 0 => if mask = 0xFF#8 then decodeWrite addr data else .error .writeMask
  | 1 => if addr = 0x04#8 then .ok (.updCtrl mask data) else .error .neverUpdated
  | 2 => .error .readKind
  | _ => .error .reservedKind

/-- The decoder of both ports. -/
def decode : PortWord → Except DecodeError Instr
  | .request w => .ok (decodeRequest w)
  | .bus w => decodeBus w

/-- A request word from its fields (R53). -/
def requestWord (op target : BitVec 4) (value : Byte) (onMs offMs : Millis) : RequestWord :=
  offMs ++ onMs ++ value ++ target ++ op

/-- The two bits of KIND (R58). -/
def BusKind.code : BusKind → BitVec 2
  | .write => 0#2
  | .update => 1#2

/-- A bus-transaction word from its fields (R58). -/
def busWord (kind : BusKind) (addr mask data : Byte) : BusWord :=
  kind.code ++ addr ++ mask ++ data

/-- The encoder: the word of an instruction, ignored request fields encoded as 0 (R53, R59, R64). -/
def encode : Instr → PortWord
  | .setBrightness t v on off => .request (requestWord 1#4 t v on off)
  | .setBlink t on off => .request (requestWord 2#4 t 0#8 on off)
  | .attach on off => .request (requestWord 3#4 0#4 0#8 on off)
  | .detach on off => .request (requestWord 4#4 0#4 0#8 on off)
  | .shutdown on off => .request (requestWord 5#4 0#4 0#8 on off)
  | .reservedOp0 on off => .request (requestWord 0#4 0#4 0#8 on off)
  | .reservedOp67 low on off => .request (requestWord (3#3 ++ low) 0#4 0#8 on off)
  | .reservedOp8F low on off => .request (requestWord (1#1 ++ low) 0#4 0#8 on off)
  | .resetCmd => .bus (busWord .write 0x00#8 0xFF#8 0x07#8)
  | .sleepCmd => .bus (busWord .write 0x00#8 0xFF#8 0x08#8)
  | .wakeCmd => .bus (busWord .write 0x00#8 0xFF#8 0x00#8)
  | .wrPeriod steps => .bus (busWord .write 0x01#8 0xFF#8 steps)
  | .wrPwm1 code => .bus (busWord .write 0x02#8 0xFF#8 code)
  | .updCtrl m v => .bus (busWord .update 0x04#8 m v)
  | .wrIled0 code => .bus (busWord .write 0x06#8 0xFF#8 code)
  | .wrIled1 code => .bus (busWord .write 0x07#8 0xFF#8 code)
  | .wrIled2 code => .bus (busWord .write 0x08#8 0xFF#8 code)
  | .wrIled3 code => .bus (busWord .write 0x09#8 0xFF#8 code)

/-- The port and word that an opcode-table row of `nbits` bits stands for: a row of 25 to 32 bits that is a bus form
is a bus-transaction word, any other a request word (log 13; R63). -/
def tablePort (nbits w : Nat) : PortWord :=
  match decide (24 < nbits) && decide (nbits ≤ 32), decodeBus (BitVec.ofNat 26 w) with
  | true, .ok _ => .bus (BitVec.ofNat 26 w)
  | _, _ => .request (BitVec.ofNat 144 w)

/-- The instruction the decoder reads from a row's bits, every bit above `nbits` zero. -/
def decodeTableWord (nbits w : Nat) : Option Instr :=
  match decode (tablePort nbits w) with
  | .ok i => some i
  | .error _ => none

/-- The STATUS code (R57, R98). -/
def Status.code : Status → BitVec 3
  | .ok => 0#3
  | .busError => 1#3
  | .powerError => 2#3
  | .configError => 3#3
  | .illegalRequest => 4#3

/-- The status of a code; 5 to 7 are never produced (R57). -/
def decodeStatus (c : BitVec 3) : Option Status :=
  match c.toNat with
  | 0 => some .ok
  | 1 => some .busError
  | 2 => some .powerError
  | 3 => some .configError
  | 4 => some .illegalRequest
  | _ => none

/-- The response word (R57). -/
def Response.word (r : Response) : ResponseWord := r.offOut ++ r.onOut ++ r.status.code

/-- The response a word carries, none for the STATUS codes never produced (R57). -/
def decodeResponse (w : ResponseWord) : Option Response :=
  (decodeStatus (w.extractLsb' 0 3)).map fun st => ⟨st, w.extractLsb' 3 64, w.extractLsb' 67 64⟩

/-- The bus-transaction word of an event, for a bus event (R46, R58). -/
def Event.word? : Event → Option BusWord
  | .bus kind a m v _ => some (busWord kind a m v)
  | .pwr _ _ => none
  | .wait _ => none

/-- `-> OK` or `-> ERR` (R64). -/
def Result.text : Result → String
  | .ok => " -> OK"
  | .err => " -> ERR"

/-- The text of an event (R64), numbers in decimal. -/
def Event.text : Event → String
  | .bus .write a _ v r => "WR " ++ toString a.toNat ++ ", " ++ toString v.toNat ++ r.text
  | .bus .update a m v r =>
    "UPD " ++ toString a.toNat ++ ", " ++ toString m.toNat ++ ", " ++ toString v.toNat ++ r.text
  | .pwr .enable r => "PWR ENABLE" ++ r.text
  | .pwr .disable r => "PWR DISABLE" ++ r.text
  | .wait t => "WAIT " ++ toString t ++ "us"

/-- The text of a request (R64), numbers in decimal; the other rows have no request text. -/
def Instr.text? : Instr → Option String
  | .setBrightness t v _ _ => some ("SET_BRIGHTNESS L" ++ toString t.toNat ++ ", " ++ toString v.toNat)
  | .setBlink t on off =>
    some ("SET_BLINK L" ++ toString t.toNat ++ ", " ++ toString on.toNat ++ ", " ++ toString off.toNat)
  | .attach _ _ => some "ATTACH"
  | .detach _ _ => some "DETACH"
  | .shutdown _ _ => some "SHUTDOWN"
  | .reservedOp0 _ _ | .reservedOp67 _ _ _ | .reservedOp8F _ _ _ => none
  | .resetCmd | .sleepCmd | .wakeCmd | .wrPeriod _ | .wrPwm1 _ | .updCtrl _ _ => none
  | .wrIled0 _ | .wrIled1 _ | .wrIled2 _ | .wrIled3 _ => none

end Sys2Proof
end

