-- ==== Sys2Proof/Machine/State.lean ====
section
/-! DEFINITION. The state of the block and of the chip it drives, its reset, and the reasons a step can stop
(10_state.md; 70_reset_and_hazards.md). -/

namespace Sys2Proof.Machine

open Sys2Proof

/-- `LIFECYCLE` (R13, R14). -/
inductive Lifecycle where
  | uninit
  | attached
  | shutdown
  | removed
  deriving DecidableEq, Repr

/-- The last RESET_CTRL command that took effect since the chip was powered (R111; DEDUCED, log 11).  `unset` is a chip
that has taken no command yet; `settled` one whose reset a settle wait followed, so that it is over. -/
inductive ChipMode where
  | unset
  | reset
  | settled
  | asleep
  | awake
  deriving DecidableEq, Repr

/-- Bytes by address, strictly rising, no entry equal to the byte an unlisted address reads as. -/
abbrev Memory := List Host.Cell

/-- What an unlisted address of either plane of the register image reads as. -/
def Memory.unlisted : Byte := 0#8

/-- The model's image of the chip's registers (R23), in two planes by address: which bits hold a value, and the bits.
A bit that holds no value (R32, R38, R41) is 0 in both, so an unlisted address holds no value (log 5). -/
structure RegImage where
  known : Memory
  bits : Memory
  deriving DecidableEq, Repr

/-- What one register holds: its bits, and which of them hold a value. -/
structure RegVal where
  known : Byte
  bits : Byte
  deriving DecidableEq, Repr

/-- The machine's state.  The first five fields are the block's own (R13); `image` and `chipMode` the chip's (R23, R111);
`config` the parameters (R7, R8; log 1); `trace` and `responses` the observation (R46; log 9); `pending`, `draws` and
`drawn` are the model's inputs and its draw counter (logs 2, 6). -/
structure State where
  lifecycle : Lifecycle
  enabled : Bool
  psrcOn : Bool
  ledBright : List Byte
  chBright : List Byte
  image : RegImage
  chipMode : ChipMode
  config : Params
  trace : List Event
  responses : List Response
  pending : List PortWord
  draws : List Draw
  drawn : Nat
  deriving DecidableEq, Repr

/-- The block's start (R32, R113), with the parameters `p` and the power source in state `power`: UNINIT, disabled, no
register with a value.  DESIGN CHOICE (log 4, unsafe): every brightness is 0. -/
def State.start (p : Params) (power : Bool) : State where
  lifecycle := .uninit
  enabled := false
  psrcOn := power
  ledBright := List.replicate p.ledCount 0#8
  chBright := List.replicate p.channelCount 0#8
  image := ⟨[], []⟩
  chipMode := .unset
  config := p
  trace := []
  responses := []
  pending := []
  draws := []
  drawn := 0

/-- The machine right after reset: the block's start (R113) with the platform's parameters and power source. -/
def State.reset : State := State.start Config.platform Config.powerAtStart

/-- Why the machine stops with a fault. -/
inductive Fault where
  /-- Raised by WR_ILED3 on a chip without channel 3: the address has no register there, and what the chip does is in no
  source (R34).  Safe: the model stops where the hardware may go on (log 8). -/
  | noRegister (addr : Byte)
  deriving DecidableEq, Repr

/-- Why a step is refused. -/
inductive Refusal where
  /-- Raised by an arm of `exec` for an instruction without a meaning.  Safe.  No arm does. -/
  | notModelled (mnemonic : String)
  /-- Raised by the step for a word at the bus port that is none of the forms of R59, with the reason.  Safe: no
  source says what such a transaction does (R34, R58; log 12). -/
  | notABusForm (reason : DecodeError)
  deriving DecidableEq, Repr

end Sys2Proof.Machine
end

