-- ==== Sys2Proof/Machine/Ops.lean ====
section
/-! DEFINITION. The named operations over the register image and the state: reading and writing a register, the draws,
the bus and power ports, the settle wait, responding, and raising an error (20_memory.md; 60_exceptions.md). -/

namespace Sys2Proof.Machine

open Sys2Proof

/-! ### One plane of the register image -/

/-- The byte at address `a`. -/
def Memory.read : Memory → Nat → Byte
  | [], _ => Memory.unlisted
  | (b, v) :: rest, a => if b = a then v else Memory.read rest a

/-- Put an entry in front, unless it equals what an unlisted address reads as. -/
def Memory.cons (a : Nat) (v : Byte) (rest : Memory) : Memory :=
  if v = Memory.unlisted then rest else (a, v) :: rest

/-- Write `v` at address `a`, keeping the canonical form. -/
def Memory.write : Memory → Nat → Byte → Memory
  | [], a, v => Memory.cons a v []
  | (b, u) :: rest, a, v =>
    if b < a then (b, u) :: Memory.write rest a v
    else if b = a then Memory.cons a v rest
    else Memory.cons a v ((b, u) :: rest)

/-- The canonical form above address `lo`: addresses strictly rising, no entry equal to what is unlisted. -/
def Memory.wfFrom : Nat → Memory → Bool
  | _, [] => true
  | lo, (a, v) :: rest => lo ≤ a && v != Memory.unlisted && Memory.wfFrom (a + 1) rest

/-- The canonical form. -/
def Memory.wf (m : Memory) : Bool := Memory.wfFrom 0 m

/-! ### The register image (R23, R37, R38, R39, R41) -/

/-- A register that holds no value (R32, R41). -/
def RegVal.noValue : RegVal := ⟨0#8, 0#8⟩

/-- A register that holds the byte `v`. -/
def RegVal.full (v : Byte) : RegVal := ⟨0xFF#8, v⟩

/-- The byte a register holds, if every bit of it holds a value. -/
def RegVal.value? (r : RegVal) : Option Byte := if r.known = 0xFF#8 then some r.bits else none

/-- The masked update of R38: `(REG & ~m) | (v & m)`; a bit outside `m` that holds no value still holds none. -/
def RegVal.update (r : RegVal) (m v : Byte) : RegVal :=
  ⟨r.known ||| m, (r.bits &&& ~~~m) ||| (v &&& m)⟩

/-- The image in which no register holds a value (R32, R41). -/
def RegImage.empty : RegImage := ⟨[], []⟩

/-- What the register at `a` holds. -/
def RegImage.read (g : RegImage) (a : Nat) : RegVal := ⟨g.known.read a, g.bits.read a⟩

/-- The image with register `a` holding `r`. -/
def RegImage.write (g : RegImage) (a : Nat) (r : RegVal) : RegImage :=
  ⟨g.known.write a r.known, g.bits.write a r.bits⟩

/-- Both planes are in canonical form. -/
def RegImage.wf (g : RegImage) : Bool := g.known.wf && g.bits.wf

/-- The registers exist at 0x00..0x05 and 0x06..0x05+CHANNEL_COUNT (R23, R34), of at most ten (R7). -/
def regCount (p : Params) : Nat := min (6 + p.channelCount) 10

/-- `REG_DEFAULT[a]` (R7, D26). -/
def regDefaultAt (p : Params) (a : Nat) : Byte := p.regDefault.toList.getD a 0#8

/-- The first `n` registers at their defaults, on top of `g`. -/
def fillDefaults (p : Params) (g : RegImage) : Nat → RegImage
  | 0 => g
  | n + 1 => (fillDefaults p g n).write n (RegVal.full (regDefaultAt p n))

/-- The image after a chip reset: every register holds `REG_DEFAULT` (R31, R39). -/
def defaultImage (p : Params) : RegImage := fillDefaults p RegImage.empty (regCount p)

/-- `apply(REG, a, v)` of R37.  An address with no register leaves the image (log 8). -/
def applyWrite (p : Params) (a v : Byte) (g : RegImage) : RegImage :=
  if a = 0x00#8 ∧ v = 0x07#8 then defaultImage p
  else if a.toNat < regCount p then g.write a.toNat (RegVal.full v)
  else g

/-- `applyU(REG, a, m, v)` of R38. -/
def applyUpdate (p : Params) (a m v : Byte) (g : RegImage) : RegImage :=
  if a.toNat < regCount p then g.write a.toNat ((g.read a.toNat).update m v) else g

/-- The chip's power state after an applied write (R24, R43, R111; log 11): only RESET_CTRL commands change it. -/
def modeAfterWrite (a v : Byte) (mode : ChipMode) : ChipMode :=
  if a = 0x00#8 then
    match v.toNat with
    | 0 => .awake
    | 7 => .reset
    | 8 => .asleep
    | _ => .unset
  else mode

/-! ### One field of the state at a time -/

def State.setLifecycle (s : State) (l : Lifecycle) : State := { s with lifecycle := l }
def State.setEnabled (s : State) (b : Bool) : State := { s with enabled := b }
def State.setPsrcOn (s : State) (b : Bool) : State := { s with psrcOn := b }
def State.setLedBright (s : State) (b : List Byte) : State := { s with ledBright := b }
def State.setChBright (s : State) (b : List Byte) : State := { s with chBright := b }
def State.setImage (s : State) (g : RegImage) : State := { s with image := g }
def State.setChipMode (s : State) (m : ChipMode) : State := { s with chipMode := m }
def State.setPending (s : State) (p : List PortWord) : State := { s with pending := p }

/-- Append an event to the trace (R46). -/
def State.emit (s : State) (e : Event) : State := { s with trace := s.trace ++ [e] }

/-- End the request: append its response word to those returned (R10, R46). -/
def State.respond (s : State) (r : Response) : State := { s with responses := s.responses ++ [r] }

/-- What register `a` holds. -/
def State.reg (s : State) (a : Nat) : RegVal := s.image.read a

/-! ### Draws (R7, D18 to D20; log 2) -/

/-- The next answer: the one supplied in `draws`, else the oracle's own. -/
def State.nextDraw (s : State) : Draw :=
  match s.draws with
  | d :: _ => d
  | [] => Config.oracle s.drawn

/-- Take the next answer.  Draws are numbered in trace order, bus transactions and power calls together. -/
def State.takeDraw (s : State) : State := { s with draws := s.draws.tail, drawn := s.drawn + 1 }

/-! ### The bus port (R36 to R39) -/

/-- Whether a transaction with the draw `d` takes effect (R37, D19, D20): it does when the power source is on and the
result is OK; otherwise that is drawn. -/
def State.takesEffect (s : State) (d : Draw) : Bool :=
  if s.psrcOn = true ∧ d.result = .ok then true else d.applied

/-- `BusWrite(a, v)` (R37), with its result. -/
def busWrite (a v : Byte) (s : State) : Result × State :=
  let d := s.nextDraw
  let t := s.takeDraw.emit (.bus .write a 0xFF#8 v d.result)
  (d.result,
    if s.takesEffect d then
      (t.setImage (applyWrite s.config a v s.image)).setChipMode (modeAfterWrite a v s.chipMode)
    else t)

/-- `BusUpdate(a, m, v)` (R38), with its result. -/
def busUpdate (a m v : Byte) (s : State) : Result × State :=
  let d := s.nextDraw
  let t := s.takeDraw.emit (.bus .update a m v d.result)
  (d.result,
    if s.takesEffect d then t.setImage (applyUpdate s.config a m v s.image) else t)

/-! ### The power-source port (R17, R41, R45) -/

/-- `PowerEnable()`, with its result.  A chip that comes to power has taken no command yet (R111; log 11). -/
def powerEnable (s : State) : Result × State :=
  let r := s.nextDraw.result
  let t := s.takeDraw.emit (.pwr .enable r)
  match r with
  | .ok => (.ok, (if s.psrcOn then t else t.setChipMode .unset).setPsrcOn true)
  | .err => (.err, t)

/-- The image after the power source went off (R41): no register holds a value, unless the chip retains them. -/
def imageAfterPowerOff (p : Params) (g : RegImage) : RegImage :=
  if p.retainOnPowerOff then g else RegImage.empty

/-- `PowerDisable()`, with its result. -/
def powerDisable (s : State) : Result × State :=
  let r := s.nextDraw.result
  let t := s.takeDraw.emit (.pwr .disable r)
  match r with
  | .ok =>
    (.ok, ((t.setPsrcOn false).setImage (imageAfterPowerOff s.config s.image)).setChipMode .unset)
  | .err => (.err, t)

/-- The chip's power state after `T_SETTLE_US`: a reset is over by then (R111; log 11). -/
def modeAfterSettle : ChipMode → ChipMode
  | .unset => .unset
  | .reset => .settled
  | .settled => .settled
  | .asleep => .asleep
  | .awake => .awake

/-- `Wait(T_SETTLE_US)` (R10, R111, R116). -/
def settleWait (s : State) : State := (s.emit (.wait s.config.settleUs)).setChipMode (modeAfterSettle s.chipMode)

/-! ### Raising an error (R10, R99): this block's taking of an exception.  There is no return from one (R104). -/

/-- The errors a request can raise (R98). -/
inductive Error where
  | bus
  | power
  | config
  deriving DecidableEq, Repr

/-- The STATUS of a raised error (R98). -/
def Error.status : Error → Status
  | .bus => .busError
  | .power => .powerError
  | .config => .configError

/-- A micro-operation's result: the state it left, and the error it raised, if any.  What happened before the raise
stands (R99, R100). -/
structure Micro where
  state : State
  raised : Option Error
  deriving DecidableEq, Repr

/-- A micro-operation that ended normally. -/
def done (s : State) : Micro := ⟨s, none⟩

/-- `raise E()`. -/
def raise (e : Error) (s : State) : Micro := ⟨s, some e⟩

/-- Run the later steps of a request, unless an error was raised (R99). -/
def Micro.andThen (m : Micro) (f : State → Micro) : Micro :=
  match m.raised with
  | none => f m.state
  | some _ => m

/-- `if r = ERR: raise E()` on a port operation's result. -/
def orRaise (e : Error) (x : Result × State) : Micro :=
  match x.1 with
  | .ok => done x.2
  | .err => raise e x.2

/-- End a request: the given response if nothing was raised, else the error's status with the given times (R99). -/
def Micro.conclude (m : Micro) (okOn okOff errOn errOff : Millis) : State :=
  match m.raised with
  | none => m.state.respond ⟨.ok, okOn, okOff⟩
  | some e => m.state.respond ⟨e.status, errOn, errOff⟩

/-- `respond(ILLEGAL_REQUEST, ON_MS, OFF_MS)`: no event and no state change (R56, R61, R62). -/
def illegalRequest (onMs offMs : Millis) (s : State) : State :=
  s.respond ⟨.illegalRequest, onMs, offMs⟩

end Sys2Proof.Machine
end

