-- ==== Sys2Proof/Machine/Operands.lean ====
section
/-! DEFINITION. The operands of requests and micro-operations: the target LED, its member channels, the output-current
code, the control-field masks and data, the group scaling (41_channel_driver.md; 30_encoding.md R55, R60). -/

namespace Sys2Proof.Machine

open Sys2Proof

/-- The logical LED that TARGET names, none when `TARGET ≥ LED_COUNT` (R55, R56). -/
def targetLed (s : State) (target : BitVec 4) : Option Led := s.config.leds[target.toNat]?

/-- `ILED_CODE(b)` (R71). -/
def iledCode (b : Byte) : Byte := if b = 0#8 then 0#8 else b - 1#8

/-- `MODE_FOR(b)` (R72). -/
def modeFor (b : Byte) : BitVec 2 := if b = 0#8 then 0#2 else 1#2

/-- `OUT(ov, w) = (ov * w) div 255` (R73). -/
def scaledOutput (ov : Byte) (w : Nat) : Byte := BitVec.ofNat 8 (ov.toNat * w / 255)

/-- The output-current register of channel `c`: address `0x06 + c` (R30). -/
def iledAddr (c : Nat) : Byte := BitVec.ofNat 8 (6 + c)

/-- `(0b11 << 2c) & 0xFF` (R60, R74). -/
def ctrlMask (c : Nat) : Byte := 3#8 <<< (2 * c)

/-- `(f << 2c) & 0xFF` (R60, R74). -/
def ctrlData (c : Nat) (f : BitVec 2) : Byte := f.setWidth 8 <<< (2 * c)

/-- The combined mask of a list of channels (R76). -/
def groupMask : List Nat → Byte
  | [] => 0#8
  | c :: rest => ctrlMask c ||| groupMask rest

/-- The combined data of a list of channels, the same field for each (R76). -/
def groupData (f : BitVec 2) : List Nat → Byte
  | [] => 0#8
  | c :: rest => ctrlData c f ||| groupData f rest

/-- `members(t)`: the member channels in configuration order (R76, R89). -/
def ledMembers : Led → List Nat
  | .single c => [c]
  | .group ms => ms.map Member.channel

/-- What LED_WRITE sends to each member channel, in configuration order (R78). -/
def ledOutputs (v : Byte) : Led → List (Nat × Byte)
  | .single c => [(c, v)]
  | .group ms => ms.map fun m => (m.channel, scaledOutput v m.weight)

end Sys2Proof.Machine
end

