-- ==== Sys2Proof/Machine/Bus.lean ====
section
/-! DEFINITION. The bus-transaction forms on their own: each is the BusWrite or BusUpdate that the block emits (20_memory.md
R37, R38, R39; 30_encoding.md R59).  DESIGN CHOICE (log 7): it runs on its own, whatever its data, the bytes that R59 excludes
too.  The transport's answer stands in the event; there is no response word. -/

namespace Sys2Proof.Machine

open Sys2Proof

/-- RESET_CMD (R39). -/
def execResetCmd (s : State) : Host.Outcome State Fault Refusal := .next (busWrite 0x00#8 0x07#8 s).2

/-- SLEEP_CMD (R39, R69). -/
def execSleepCmd (s : State) : Host.Outcome State Fault Refusal := .next (busWrite 0x00#8 0x08#8 s).2

/-- WAKE_CMD (R39, R68). -/
def execWakeCmd (s : State) : Host.Outcome State Fault Refusal := .next (busWrite 0x00#8 0x00#8 s).2

/-- WR_PERIOD (R37, R91). -/
def execWrPeriod (steps : Byte) (s : State) : Host.Outcome State Fault Refusal := .next (busWrite 0x01#8 steps s).2

/-- WR_PWM1 (R37, R91). -/
def execWrPwm1 (code : Byte) (s : State) : Host.Outcome State Fault Refusal := .next (busWrite 0x02#8 code s).2

/-- UPD_CTRL (R38, R74, R76). -/
def execUpdCtrl (mask data : Byte) (s : State) : Host.Outcome State Fault Refusal :=
  .next (busUpdate 0x04#8 mask data s).2

/-- A WRITE to ILED[c] (R37, R77).  Where the chip has no such register the machine stops (R34; DESIGN CHOICE, log 8). -/
def writeIled (c : Nat) (code : Byte) (s : State) : Host.Outcome State Fault Refusal :=
  if 6 + c < regCount s.config then .next (busWrite (iledAddr c) code s).2 else .fault (.noRegister (iledAddr c))

/-- WR_ILED0: present on every chip (R23, R77). -/
def execWrIled0 (code : Byte) (s : State) : Host.Outcome State Fault Refusal := .next (busWrite 0x06#8 code s).2

/-- WR_ILED1: present on every chip (R23, R77). -/
def execWrIled1 (code : Byte) (s : State) : Host.Outcome State Fault Refusal := .next (busWrite 0x07#8 code s).2

/-- WR_ILED2: present on every chip (R23, R77). -/
def execWrIled2 (code : Byte) (s : State) : Host.Outcome State Fault Refusal := .next (busWrite 0x08#8 code s).2

/-- WR_ILED3: present on a 4-channel chip (R59, R77). -/
def execWrIled3 (code : Byte) (s : State) : Host.Outcome State Fault Refusal := writeIled 3 code s

end Sys2Proof.Machine
end

