-- ==== Sys2Proof/Machine/Flags.lean ====
section
/-! DEFINITION. The block's flags: the activity predicate that decides `ENABLED`, and the lifecycle checks.  The block has no
condition codes and no other status flags (R22). -/

namespace Sys2Proof.Machine

open Sys2Proof

/-- `ANY_ACTIVE(B)`: some `B[l] ≠ 0` with `l < LED_COUNT` (R67). -/
def anyActive (ledCount : Nat) (b : List Byte) : Bool := (b.take ledCount).any (· != 0#8)

/-- `ANY_ACTIVE(LED_BRIGHT)`. -/
def State.active (s : State) : Bool := anyActive s.config.ledCount s.ledBright

/-- Where SET_BRIGHTNESS, SET_BLINK and SHUTDOWN are legal (R62). -/
def mayUse (l : Lifecycle) : Bool := l == .attached

/-- Where ATTACH is legal (R62). -/
def mayAttach (l : Lifecycle) : Bool := l == .uninit || l == .removed

/-- Where DETACH is legal (R62). -/
def mayDetach (l : Lifecycle) : Bool := l == .attached || l == .shutdown

end Sys2Proof.Machine
end

