-- ==== Sys2Proof/Machine/Power.lean ====
section
/-! DEFINITION. The power controller: ENSURE_ENABLED, ENSURE_DISABLED and the gating wrapper (40_power_controller.md;
42_power_gating.md R79). -/

namespace Sys2Proof.Machine

open Sys2Proof

/-- What ENSURE_ENABLED does once the power source is on: the wake command, undone on a failure (R68). -/
def wakeChip (s : State) : Micro :=
  let x := busWrite 0x00#8 0x00#8 s
  match x.1 with
  | .ok => done (x.2.setEnabled true)
  | .err => raise .bus (powerDisable x.2).2

/-- `ENSURE_ENABLED()` (R68). -/
def ensureEnabled (s : State) : Micro :=
  if s.enabled then done s else (orRaise .power (powerEnable s)).andThen wakeChip

/-- `ENABLED <- 0` after a power-source disable that returned OK (R69). -/
def clearEnabledOnOk (x : Result × State) : State :=
  match x.1 with
  | .ok => x.2.setEnabled false
  | .err => x.2

/-- `ENSURE_DISABLED()` (R69): never raises. -/
def ensureDisabled (s : State) : State :=
  if s.enabled then clearEnabledOnOk (powerDisable (busWrite 0x00#8 0x08#8 s).2) else s

/-- `GATED(B_old, B_new, BODY)` (R79). -/
def gated (bOld bNew : List Byte) (body : State → Micro) (s : State) : Micro :=
  let n := s.config.ledCount
  let start := if anyActive n bNew || anyActive n bOld then ensureEnabled s else done s
  (start.andThen body).andThen fun t =>
    done (if anyActive n bNew then t else ensureDisabled t)

end Sys2Proof.Machine
end

