-- ==== Sys2Proof/Machine/Channel.lean ====
section
/-! DEFINITION. The channel driver: CTRL_SET, GROUP_CTRL, SET_CHANNEL and LED_WRITE (41_channel_driver.md). -/

namespace Sys2Proof.Machine

open Sys2Proof

/-- `CTRL_SET(c, f)` (R74). -/
def ctrlSet (c : Nat) (f : BitVec 2) (s : State) : Micro :=
  orRaise .bus (busUpdate 0x04#8 (ctrlMask c) (ctrlData c f) s)

/-- `GROUP_CTRL(C, f)`: one transaction for all the channels (R76). -/
def groupCtrl (cs : List Nat) (f : BitVec 2) (s : State) : Micro :=
  orRaise .bus (busUpdate 0x04#8 (groupMask cs) (groupData f cs) s)

/-- `SET_CHANNEL(c, b)`: the stored brightness, the output-current register, then the control field (R77). -/
def setChannel (c : Nat) (b : Byte) (s : State) : Micro :=
  (orRaise .bus (busWrite (iledAddr c) (iledCode b) (s.setChBright (s.chBright.set c b)))).andThen
    (ctrlSet c (modeFor b))

/-- SET_CHANNEL for each pair in order; the first error ends the loop (R78). -/
def writeChannels : List (Nat × Byte) → State → Micro
  | [], s => done s
  | (c, b) :: rest, s => (setChannel c b s).andThen (writeChannels rest)

/-- `LED_WRITE(l, v)` (R78). -/
def ledWrite (led : Led) (v : Byte) (s : State) : Micro := writeChannels (ledOutputs v led) s

end Sys2Proof.Machine
end

