-- ==== Sys2Proof/Machine/Brightness.lean ====
section
/-! DEFINITION. The request SET_BRIGHTNESS (42_power_gating.md R80). -/

namespace Sys2Proof.Machine

open Sys2Proof

/-- SET_BRIGHTNESS after its checks (R80): `LED_BRIGHT[t] <- v`, kept whatever follows, then the gated LED_WRITE. -/
def setBrightnessBody (target : BitVec 4) (led : Led) (v : Byte) (s : State) : Micro :=
  let bNew := s.ledBright.set target.toNat v
  gated s.ledBright bNew (ledWrite led v) (s.setLedBright bNew)

/-- `SET_BRIGHTNESS L<t>, <value>` (R80): the lifecycle check, then the target check (R102), then the body. -/
def execSetBrightness (target : BitVec 4) (value : Byte) (onMs offMs : Millis) (s : State) :
    Host.Outcome State Fault Refusal :=
  .next <|
    if mayUse s.lifecycle then
      match targetLed s target with
      | none => illegalRequest onMs offMs s
      | some led => (setBrightnessBody target led value s).conclude 0#64 0#64 0#64 0#64
    else illegalRequest onMs offMs s

end Sys2Proof.Machine
end

