-- ==== Sys2Proof/Machine/Blink.lean ====
section
/-! DEFINITION. The blink timing quantizer and the request SET_BLINK (43_blink_quantizer.md). -/

namespace Sys2Proof.Machine

open Sys2Proof

/-- `ceil_div(a, b)`: the least `q` with `q * b ≥ a`, for `b > 0` (R9). -/
def ceilDiv (a : Int) (b : Nat) : Int := -(-a / (b : Int))

/-- `clamp(lo, hi, x)` (R9). -/
def clamp (lo hi x : Int) : Int := min hi (max lo x)

/-- The results of QUANTIZE (R83). -/
structure Quantized where
  steps : Nat
  code : Nat
  actualOn : Nat
  actualOff : Nat
  deriving DecidableEq, Repr

/-- The blink period of a step count, in ms (R82). -/
def periodMs (steps : Nat) : Nat := steps * 128 + 256

/-- The step count of a requested sum of times (R83). -/
def quantizedSteps (sum : Nat) : Nat := (clamp 1 126 (ceilDiv ((sum : Int) - 256) 128 + 1)).toNat

/-- `QUANTIZE(on, off)` over the integers (R83). -/
def quantize (on off : Nat) : Quantized :=
  let sum := on + off
  let steps := quantizedSteps sum
  let code := on * 256 / sum
  let actualOn := periodMs steps * code / 256
  ⟨steps, code, actualOn, periodMs steps - actualOn⟩

/-- The exactness band (R85). -/
def inBand (on off : Nat) : Bool := decide (on < 2 ^ 56) && decide (on + off < 2 ^ 64)

/-- What a blink request writes and returns: the two register bytes and the achieved times. -/
structure Timing where
  steps : Byte
  code : Byte
  onOut : Millis
  offOut : Millis
  deriving DecidableEq, Repr

/-- QUANTIZE inside the band, a free value outside it (R85; DESIGN CHOICE, log 10, safe). -/
def blinkTiming (on off : Millis) (s : State) : Timing :=
  if inBand on.toNat off.toNat then
    let q := quantize on.toNat off.toNat
    ⟨BitVec.ofNat 8 q.steps, BitVec.ofNat 8 q.code, BitVec.ofNat 64 q.actualOn, BitVec.ofNat 64 q.actualOff⟩
  else
    let w := Config.wildTiming on off s.drawn
    ⟨BitVec.ofNat 8 (w.stepsLessOne.val + 1), w.code, w.onOut, w.offOut⟩

/-- The general path's writes: period, duty, then the control fields in one update (R91). -/
def blinkWrites (cs : List Nat) (g : Timing) (s : State) : Micro :=
  ((orRaise .bus (busWrite 0x01#8 g.steps s)).andThen fun t =>
    orRaise .bus (busWrite 0x02#8 g.code t)).andThen (groupCtrl cs 2#2)

/-- The always-on path (R89): only the control fields, gated; the times are returned unchanged. -/
def blinkAlwaysOn (led : Led) (onMs offMs : Millis) (s : State) : State :=
  (gated s.ledBright s.ledBright (groupCtrl (ledMembers led) 1#2) s).conclude onMs offMs onMs offMs

/-- The never-on path (R90): SET_BRIGHTNESS to 0; the times are returned unchanged. -/
def blinkNeverOn (target : BitVec 4) (led : Led) (onMs offMs : Millis) (s : State) : State :=
  (setBrightnessBody target led 0#8 s).conclude onMs offMs onMs offMs

/-- The general path (R91): `(on, off)` is the pair quantized, `(onMs, offMs)` the pair requested, which an error
returns (R92). -/
def blinkGeneral (led : Led) (on off onMs offMs : Millis) (s : State) : State :=
  let g := blinkTiming on off s
  (gated s.ledBright s.ledBright (blinkWrites (ledMembers led) g) s).conclude g.onOut g.offOut onMs offMs

/-- SET_BLINK after its checks: the default-pattern substitution, then the policy order (R87, R88, R93). -/
def setBlinkBody (target : BitVec 4) (led : Led) (onMs offMs : Millis) (s : State) : State :=
  let both := onMs = 0#64 ∧ offMs = 0#64
  let on : Millis := if both then 500#64 else onMs
  let off : Millis := if both then 500#64 else offMs
  if off = 0#64 then blinkAlwaysOn led onMs offMs s
  else if on = 0#64 then blinkNeverOn target led onMs offMs s
  else blinkGeneral led on off onMs offMs s

/-- `SET_BLINK L<t>, <on_ms>, <off_ms>` (R93). -/
def execSetBlink (target : BitVec 4) (onMs offMs : Millis) (s : State) : Host.Outcome State Fault Refusal :=
  .next <|
    if mayUse s.lifecycle then
      match targetLed s target with
      | none => illegalRequest onMs offMs s
      | some led => setBlinkBody target led onMs offMs s
    else illegalRequest onMs offMs s

end Sys2Proof.Machine
end

