-- ==== Sys2Proof/Machine/Lifecycle.lean ====
section
/-! DEFINITION. The chip lifecycle: CFG_VALID and the requests ATTACH, DETACH, SHUTDOWN (44_lifecycle.md). -/

namespace Sys2Proof.Machine

open Sys2Proof

/-- The check of one logical LED on a chip of `n` channels (R94). -/
def ledValid (n : Nat) : Led → Bool
  | .single c => decide (c < n)
  | .group ms =>
    decide (1 ≤ ms.length) && decide (ms.length ≤ n) &&
      ms.all fun m => decide (m.channel < n) && decide (m.weight ≤ 255)

/-- Every channel index that LEDS names, in order. -/
def namedChannels (leds : List Led) : List Nat := leds.flatMap ledMembers

/-- `CFG_VALID` (R94). -/
def cfgValid (p : Params) : Bool :=
  (p.channelCount == 3 || p.channelCount == 4) && p.leds.all (ledValid p.channelCount) &&
    decide (namedChannels p.leds).Nodup && decide (p.ledCount ≤ 15)

/-- ATTACH after its reset write: the settle wait, the configuration check, the initial block state (R95). -/
def attachEnumerate (s : State) : Micro :=
  let t := settleWait s
  if cfgValid s.config then
    done ((((t.setLedBright (List.replicate s.config.ledCount 0#8)).setChBright
      (List.replicate s.config.channelCount 0#8)).setEnabled false).setLifecycle .attached)
  else raise .config t

/-- `ATTACH` (R95). -/
def execAttach (onMs offMs : Millis) (s : State) : Host.Outcome State Fault Refusal :=
  .next <|
    if mayAttach s.lifecycle then
      ((orRaise .bus (busWrite 0x00#8 0x07#8 s)).andThen attachEnumerate).conclude 0#64 0#64 0#64 0#64
    else illegalRequest onMs offMs s

/-- `DETACH` (R96): the reset's and the disable's results are ignored (R101). -/
def execDetach (onMs offMs : Millis) (s : State) : Host.Outcome State Fault Refusal :=
  .next <|
    if mayDetach s.lifecycle then
      let t := (busWrite 0x00#8 0x07#8 s).2
      let u := if t.enabled then (powerDisable t).2.setEnabled false else t
      (u.setLifecycle .removed).respond ⟨.ok, 0#64, 0#64⟩
    else illegalRequest onMs offMs s

/-- `SHUTDOWN` (R97): the reset's result is ignored (R101). -/
def execShutdown (onMs offMs : Millis) (s : State) : Host.Outcome State Fault Refusal :=
  .next <|
    if mayUse s.lifecycle then
      ((busWrite 0x00#8 0x07#8 s).2.setLifecycle .shutdown).respond ⟨.ok, 0#64, 0#64⟩
    else illegalRequest onMs offMs s

end Sys2Proof.Machine
end

