-- ==== Sys2Proof/Machine/Reserved.lean ====
section
/-! DEFINITION. The reserved opcodes: answered ILLEGAL_REQUEST, with no event and no state change (30_encoding.md R61). -/

namespace Sys2Proof.Machine

open Sys2Proof

/-- RESERVED_OP0 (R61). -/
def execReservedOp0 (onMs offMs : Millis) (s : State) : Host.Outcome State Fault Refusal :=
  .next (illegalRequest onMs offMs s)

/-- RESERVED_OP6_7 (R61). -/
def execReservedOp67 (onMs offMs : Millis) (s : State) : Host.Outcome State Fault Refusal :=
  .next (illegalRequest onMs offMs s)

/-- RESERVED_OP8_F (R61). -/
def execReservedOp8F (onMs offMs : Millis) (s : State) : Host.Outcome State Fault Refusal :=
  .next (illegalRequest onMs offMs s)

end Sys2Proof.Machine
end

