-- ==== Sys2Proof/Machine/Dispatch.lean ====
section
/-! DEFINITION. The meaning of every instruction, one arm per constructor. -/

namespace Sys2Proof.Machine

open Sys2Proof

/-- One arm per row of spec/opcode_table.json. -/
def exec (i : Instr) (s : State) : Host.Outcome State Fault Refusal :=
  match i with
  | .setBrightness target value onMs offMs => Sys2Proof.Machine.execSetBrightness target value onMs offMs s
  | .setBlink target onMs offMs => Sys2Proof.Machine.execSetBlink target onMs offMs s
  | .attach onMs offMs => Sys2Proof.Machine.execAttach onMs offMs s
  | .detach onMs offMs => Sys2Proof.Machine.execDetach onMs offMs s
  | .shutdown onMs offMs => Sys2Proof.Machine.execShutdown onMs offMs s
  | .reservedOp0 onMs offMs => Sys2Proof.Machine.execReservedOp0 onMs offMs s
  | .reservedOp67 _ onMs offMs => Sys2Proof.Machine.execReservedOp67 onMs offMs s
  | .reservedOp8F _ onMs offMs => Sys2Proof.Machine.execReservedOp8F onMs offMs s
  | .resetCmd => Sys2Proof.Machine.execResetCmd s
  | .sleepCmd => Sys2Proof.Machine.execSleepCmd s
  | .wakeCmd => Sys2Proof.Machine.execWakeCmd s
  | .wrPeriod steps => Sys2Proof.Machine.execWrPeriod steps s
  | .wrPwm1 code => Sys2Proof.Machine.execWrPwm1 code s
  | .updCtrl mask data => Sys2Proof.Machine.execUpdCtrl mask data s
  | .wrIled0 code => Sys2Proof.Machine.execWrIled0 code s
  | .wrIled1 code => Sys2Proof.Machine.execWrIled1 code s
  | .wrIled2 code => Sys2Proof.Machine.execWrIled2 code s
  | .wrIled3 code => Sys2Proof.Machine.execWrIled3 code s

end Sys2Proof.Machine
end

