-- ==== Sys2Proof/Machine/Fetch.lean ====
section
/-! DEFINITION. Taking the next word from the ports (log 6). -/

namespace Sys2Proof.Machine

open Sys2Proof

/-- The word the block takes next and the state without it; none while the block is idle (R21, R47). -/
def fetchWord (s : State) : Option (PortWord × State) :=
  match s.pending with
  | [] => none
  | w :: rest => some (w, s.setPending rest)

/-- `s` with `w` first at the ports. -/
def presentWord (w : PortWord) (s : State) : State := s.setPending (w :: s.pending)

end Sys2Proof.Machine
end

