-- ==== Sys2Proof/Machine/Step.lean ====
section
/-! DEFINITION. One step: serve the first waiting word, from its first event to its response (R21, R47; D1). -/

namespace Sys2Proof.Machine

open Sys2Proof

/-- One step.  With nothing waiting the block is idle (R21); a bus word that is no form of R59 is refused by name. -/
def step (s : State) : Host.Outcome State Fault Refusal :=
  match fetchWord s with
  | none => .next s
  | some (w, t) =>
    match decode w with
    | .ok i => exec i t
    | .error e => .refused (.notABusForm e)

/-- `s` with the table row's word placed where the step takes its next one. -/
def State.withFetchWord (s : State) (nbits w : Nat) : State := presentWord (tablePort nbits w) s

end Sys2Proof.Machine
end

