-- ==== Sys2Proof/Machine/Chip.lean ====
section
/-! DEFINITION. The chip as its programming reads (10_state.md R19; 60_exceptions.md R108, R109, R111): views of the state, which
no step reads. -/

namespace Sys2Proof.Machine

open Sys2Proof

/-- The chip's power state (R111).  `settled`: its reset is over and no command followed; `undetermined`: powered, and no
command has taken effect yet. -/
inductive ChipPower where
  | unpowered
  | resetting
  | settled
  | asleep
  | awake
  | undetermined
  deriving DecidableEq, Repr

/-- The power state of R111 (log 11).  A reset that no settle wait followed is over after at most `T_SETTLE_US`: whether it
is by now is a free value (log 18). -/
def State.chipPower (s : State) : ChipPower :=
  if s.psrcOn then
    match s.chipMode with
    | .unset => .undetermined
    | .reset => if Config.resetOver s.drawn then .settled else .resetting
    | .settled => .settled
    | .asleep => .asleep
    | .awake => .awake
  else .unpowered

/-- `MODE(c) = REG[4][2c+1:2c]` (R19, R28), none while a bit of the field holds no value.  The bits are there for `c = 3` on
a 3-channel chip too, where they are no channel's mode (R28, D30). -/
def State.channelMode (s : State) (c : Nat) : Option (BitVec 2) :=
  let r := s.reg 4
  if r.known.extractLsb' (2 * c) 2 = 3#2 then some (r.bits.extractLsb' (2 * c) 2) else none

/-- What a channel does (R108, R109).  A `none` inside an output is a value that the spec leaves open or a register that holds
none: a draw, of which only that one value is open.  `undetermined` admits any output. -/
inductive Output where
  | off
  | steady (code : Option Byte)
  | blink (periodMs : Option Nat) (onCode code : Option Byte)
  | undetermined
  deriving DecidableEq, Repr

/-- The period of blink pattern 1 by REG[1]; outside 1..126 it is open (R25, R108). -/
def blinkPeriod (n : Byte) : Option Nat := if 1 ≤ n.toNat ∧ n.toNat ≤ 126 then some (periodMs n.toNat) else none

/-- The blink of pattern 1 (R108): the period of REG[1], the duty of REG[2], the level of the channel's current register. -/
def State.blinkOutput (s : State) (c : Nat) : Output :=
  .blink ((s.reg 1).value?.bind blinkPeriod) (s.reg 2).value? (s.reg (6 + c)).value?

/-- The output of an awake chip's channel `c` (R109): field `11` is blink pattern 2, out of scope. -/
def State.awakeOutput (s : State) (c : Nat) : Output :=
  match s.channelMode c with
  | none => .undetermined
  | some f =>
    match f.toNat with
    | 0 => .off
    | 1 => .steady (s.reg (6 + c)).value?
    | 2 => s.blinkOutput c
    | _ => .undetermined

/-- The output of channel `c` of the chip (R109): off while the chip is unpowered, asleep or resetting.  DESIGN CHOICE
(log 11): undetermined once a reset is over and before the next command, and before any command. -/
def State.presentOutput (s : State) (c : Nat) : Output :=
  match s.chipPower with
  | .unpowered => .off
  | .resetting => .off
  | .settled => .undetermined
  | .asleep => .off
  | .awake => s.awakeOutput c
  | .undetermined => .undetermined

/-- The output of channel `c`.  DESIGN CHOICE (log 19): a channel that the chip does not have is undetermined, as are so bits
[7:6] of CHANNEL_CTRL on a 3-channel chip, whose meaning is in no source (R28, D30). -/
def State.channelOutput (s : State) (c : Nat) : Output :=
  if c < s.config.channelCount then s.presentOutput c else .undetermined

end Sys2Proof.Machine
end

