-- ==== Sys2Proof/Safety.lean ====
section
/-! DEFINITION. The terms claims use: the draws to come, what a request appended, the events the block may emit, and the
invariants of the block and of the chip's registers. -/

namespace Sys2Proof

/-- An event that took one answer: a bus transaction or a power call. -/
def Event.drawn : Event → Bool
  | .bus _ _ _ _ _ => true
  | .pwr _ _ => true
  | .wait _ => false

/-- The result an event carries; a wait has none. -/
def Event.result? : Event → Option Result
  | .bus _ _ _ _ r => some r
  | .pwr _ r => some r
  | .wait _ => none

/-- A power-source call that returned ERR. -/
def Event.powerError : Event → Bool
  | .bus _ _ _ _ _ => false
  | .pwr _ r => r == .err
  | .wait _ => false

/-- A power-source disable that returned OK. -/
def Event.powerOff : Event → Bool
  | .bus _ _ _ _ _ => false
  | .pwr op r => op == .disable && r == .ok
  | .wait _ => false

/-- The event with the answer ERR. -/
def Event.failed : Event → Event
  | .bus kind a m v _ => .bus kind a m v .err
  | .pwr op _ => .pwr op .err
  | .wait t => .wait t

/-- What is emitted of the events `es` when the `k`-th transaction fails and ends the request (R99). -/
def cutAt (es : List Event) (k : Nat) : List Event := es.take k ++ ((es.drop k).take 1).map Event.failed

/-- An event the block may emit: a bus transaction of R59 with its data on this chip, a power call, or a settle wait
within its bounds (R116). -/
def Event.legal (p : Params) : Event → Bool
  | .bus kind a m v _ =>
    match decodeBus (busWord kind a m v) with
    | .ok i => i.wellFormed p.channelCount
    | .error _ => false
  | .pwr _ _ => true
  | .wait t => decide (200 ≤ t) && decide (t ≤ 300)

/-- A word the host presents, as against a bus transaction on its own (log 7). -/
def PortWord.isRequest : PortWord → Bool
  | .request _ => true
  | .bus _ => false

/-- The rows of the opcode table that the host presents. -/
def Instr.isRequest : Instr → Bool
  | .setBrightness _ _ _ _ => true
  | .setBlink _ _ _ => true
  | .attach _ _ => true
  | .detach _ _ => true
  | .shutdown _ _ => true
  | .reservedOp0 _ _ => true
  | .reservedOp67 _ _ _ => true
  | .reservedOp8F _ _ _ => true
  | .resetCmd | .sleepCmd | .wakeCmd | .wrPeriod _ | .wrPwm1 _ | .updCtrl _ _ => false
  | .wrIled0 _ | .wrIled1 _ | .wrIled2 _ | .wrIled3 _ => false

/-- ON_MS of a request; a bus transaction has none. -/
def Instr.onMs : Instr → Millis
  | .setBrightness _ _ on _ => on
  | .setBlink _ on _ => on
  | .attach on _ => on
  | .detach on _ => on
  | .shutdown on _ => on
  | .reservedOp0 on _ => on
  | .reservedOp67 _ on _ => on
  | .reservedOp8F _ on _ => on
  | .resetCmd | .sleepCmd | .wakeCmd | .wrPeriod _ | .wrPwm1 _ | .updCtrl _ _ => 0#64
  | .wrIled0 _ | .wrIled1 _ | .wrIled2 _ | .wrIled3 _ => 0#64

/-- OFF_MS of a request; a bus transaction has none. -/
def Instr.offMs : Instr → Millis
  | .setBrightness _ _ _ off => off
  | .setBlink _ _ off => off
  | .attach _ off => off
  | .detach _ off => off
  | .shutdown _ off => off
  | .reservedOp0 _ off => off
  | .reservedOp67 _ _ off => off
  | .reservedOp8F _ _ off => off
  | .resetCmd | .sleepCmd | .wakeCmd | .wrPeriod _ | .wrPwm1 _ | .updCtrl _ _ => 0#64
  | .wrIled0 _ | .wrIled1 _ | .wrIled2 _ | .wrIled3 _ => 0#64

/-- TARGET, of the two requests that have one (R53). -/
def Instr.target? : Instr → Option (BitVec 4)
  | .setBrightness t _ _ _ => some t
  | .setBlink t _ _ => some t
  | .attach _ _ | .detach _ _ | .shutdown _ _ => none
  | .reservedOp0 _ _ | .reservedOp67 _ _ _ | .reservedOp8F _ _ _ => none
  | .resetCmd | .sleepCmd | .wakeCmd | .wrPeriod _ | .wrPwm1 _ | .updCtrl _ _ => none
  | .wrIled0 _ | .wrIled1 _ | .wrIled2 _ | .wrIled3 _ => none

/-- `LED_BRIGHT` after the request's own update, before it is gated (R79, R80, R90). -/
def Instr.newBright (b : List Byte) : Instr → List Byte
  | .setBrightness t v _ _ => b.set t.toNat v
  | .setBlink t on off => if on = 0#64 ∧ off ≠ 0#64 then b.set t.toNat 0#8 else b
  | .attach _ _ | .detach _ _ | .shutdown _ _ => b
  | .reservedOp0 _ _ | .reservedOp67 _ _ _ | .reservedOp8F _ _ _ => b
  | .resetCmd | .sleepCmd | .wakeCmd | .wrPeriod _ | .wrPwm1 _ | .updCtrl _ _ => b
  | .wrIled0 _ | .wrIled1 _ | .wrIled2 _ | .wrIled3 _ => b

/-- The times that an error answer of a SET_BRIGHTNESS or SET_BLINK returns: the request's for SET_BLINK, else 0 (R57, R92, R99). -/
def Instr.errorTimes : Instr → Millis × Millis
  | .setBlink _ on off => (on, off)
  | .setBrightness _ _ _ _ => (0#64, 0#64)
  | .attach _ _ | .detach _ _ | .shutdown _ _ => (0#64, 0#64)
  | .reservedOp0 _ _ | .reservedOp67 _ _ _ | .reservedOp8F _ _ _ => (0#64, 0#64)
  | .resetCmd | .sleepCmd | .wakeCmd | .wrPeriod _ | .wrPwm1 _ | .updCtrl _ _ => (0#64, 0#64)
  | .wrIled0 _ | .wrIled1 _ | .wrIled2 _ | .wrIled3 _ => (0#64, 0#64)

/-- The address and byte of each WRITE form but the chip reset (R59). -/
def Instr.writeForm? : Instr → Option (Byte × Byte)
  | .sleepCmd => some (0x00#8, 0x08#8)
  | .wakeCmd => some (0x00#8, 0x00#8)
  | .wrPeriod n => some (0x01#8, n)
  | .wrPwm1 code => some (0x02#8, code)
  | .wrIled0 code => some (0x06#8, code)
  | .wrIled1 code => some (0x07#8, code)
  | .wrIled2 code => some (0x08#8, code)
  | .wrIled3 code => some (0x09#8, code)
  | .resetCmd | .updCtrl _ _ => none
  | .setBrightness _ _ _ _ | .setBlink _ _ _ | .attach _ _ | .detach _ _ | .shutdown _ _ => none
  | .reservedOp0 _ _ | .reservedOp67 _ _ _ | .reservedOp8F _ _ _ => none

/-- What ENSURE_ENABLED emits when nothing fails (R68). -/
def wakeEvents : List Event := [.pwr .enable .ok, .bus .write 0x00#8 0xFF#8 0x00#8 .ok]

/-- What ENSURE_DISABLED emits when nothing fails (R69). -/
def sleepEvents : List Event := [.bus .write 0x00#8 0xFF#8 0x08#8 .ok, .pwr .disable .ok]

end Sys2Proof

namespace Sys2Proof.Machine

open Sys2Proof

/-- The answer that the `k`-th bus transaction or power call from here on gets (log 2). -/
def State.drawAt (s : State) (k : Nat) : Draw := (s.draws[k]?).getD (Config.oracle (s.drawn + k))

/-- The next `n` answers are OK. -/
abbrev State.okFor (s : State) (n : Nat) : Prop := ∀ k, k < n → (s.drawAt k).result = .ok

/-- A bus transaction issued now takes effect (R37, D19, D20): the power source is on and the answer is OK, or its effect is
drawn as applied. -/
abbrev State.effective (s : State) : Prop :=
  (s.psrcOn = true ∧ (s.drawAt 0).result = .ok) ∨ (s.drawAt 0).applied = true

/-- Where R62 says a request is legal; the reserved opcodes nowhere. -/
def legalLifecycles : Instr → List Lifecycle
  | .setBrightness _ _ _ _ | .setBlink _ _ _ => [.attached]
  | .attach _ _ => [.uninit, .removed]
  | .detach _ _ => [.attached, .shutdown]
  | .shutdown _ _ => [.attached]
  | .reservedOp0 _ _ | .reservedOp67 _ _ _ | .reservedOp8F _ _ _ => []
  | .resetCmd | .sleepCmd | .wakeCmd | .wrPeriod _ | .wrPwm1 _ | .updCtrl _ _ => []
  | .wrIled0 _ | .wrIled1 _ | .wrIled2 _ | .wrIled3 _ => []

/-- The events of an undisturbed SET_CHANNEL (R77). -/
def channelEvents (c : Nat) (b : Byte) : List Event :=
  [.bus .write (iledAddr c) 0xFF#8 (iledCode b) .ok,
    .bus .update 0x04#8 (ctrlMask c) (ctrlData c (modeFor b)) .ok]

/-- The two bits of field `c` of CHANNEL_CTRL, and which of them hold a value (R28). -/
def State.ctrlField (s : State) (c : Nat) : BitVec 2 × BitVec 2 :=
  ((s.reg 4).known.extractLsb' (2 * c) 2, (s.reg 4).bits.extractLsb' (2 * c) 2)

/-- ENSURE_ENABLED has something to do in a request that leaves the brightnesses `bNew` (R68, R79). -/
def State.mustWake (s : State) (bNew : List Byte) : Bool :=
  !s.enabled && (anyActive s.config.ledCount bNew || anyActive s.config.ledCount s.ledBright)

/-- ENSURE_DISABLED has something to do after a request that leaves the brightnesses `bNew` and raises nothing (R69, R79). -/
def State.mustSleep (s : State) (bNew : List Byte) : Bool :=
  (s.enabled || s.mustWake bNew) && !anyActive s.config.ledCount bNew

/-- The body of a request that leaves the brightnesses `bNew` runs on a powered chip: the power source is on, or the request
turns it on first. -/
abbrev State.poweredFor (s : State) (bNew : List Byte) : Prop := s.mustWake bNew = false → s.psrcOn = true

/-- How many answers ENSURE_ENABLED takes in such a request before its body. -/
def State.wakeDraws (s : State) (bNew : List Byte) : Nat := if s.mustWake bNew then 2 else 0

/-- In a body whose transactions start at draw `w` and whose `k`-th is answered ERR, whether the `j`-th took effect on a powered
chip (R37, D20): those before it did, the failing one when its effect is drawn as applied, those after it are not issued. -/
def State.wrote (s : State) (w k j : Nat) : Bool := decide (j < k) || (j == k && (s.drawAt (w + k)).applied)

/-- RESET_CTRL after a request that leaves the brightnesses `bNew`, every answer OK and the image kept (R68, R69). -/
def State.resetCtrlAfter (s : State) (bNew : List Byte) : RegVal :=
  if s.mustSleep bNew then RegVal.full 0x08#8 else if s.mustWake bNew then RegVal.full 0x00#8 else s.reg 0

/-- The model's record of the chip's power state (log 11) after such a request. -/
def State.chipModeAfter (s : State) (bNew : List Byte) : ChipMode :=
  if s.mustSleep bNew then .unset else if s.mustWake bNew then .awake else s.chipMode

/-- Such a request keeps the register image: it does not power the chip down, or the chip retains its registers (R41). -/
abbrev State.keepsImage (s : State) (bNew : List Byte) : Prop :=
  s.mustSleep bNew = false ∨ s.config.retainOnPowerOff = true

/-- From `s` to `u` exactly the events `es` were appended to the trace (R46). -/
@[simp] abbrev State.Emits (s u : State) (es : List Event) : Prop := u.trace = s.trace ++ es

/-- From `s` to `u` exactly one response was returned (R46). -/
@[simp] abbrev State.Answers (s u : State) (r : Response) : Prop := u.responses = s.responses ++ [r]

/-- The events appended since `s`. -/
def State.newEvents (s t : State) : List Event := t.trace.drop s.trace.length

/-- The invariant of the machine while only the host presents words. -/
structure State.Inv (s : State) : Prop where
  /-- The register image is in canonical form. -/
  imageWf : s.image.wf = true
  /-- A bit without a value is stored as 0. -/
  bitsKnown : ∀ a, (s.reg a).bits &&& ~~~(s.reg a).known = 0#8
  /-- Only the chip's registers hold values (R23, R34). -/
  registersOnly : ∀ a, regCount s.config ≤ a → s.reg a = RegVal.noValue
  /-- One brightness for each logical LED (R13). -/
  ledLength : s.ledBright.length = s.config.ledCount
  /-- One brightness for each channel (R13). -/
  chLength : s.chBright.length = s.config.channelCount
  /-- The configuration was checked before ATTACHED (R94, R95). -/
  configChecked : s.lifecycle ≠ .uninit → cfgValid s.config = true
  /-- `ENABLED` is 1 only in ATTACHED and SHUTDOWN (R14, R96, R97). -/
  enabledWhere : s.enabled = true → s.lifecycle = .attached ∨ s.lifecycle = .shutdown
  /-- No half-enabled state (R68): the power source is on while `ENABLED` is 1. -/
  enabledPowered : s.enabled = true → s.psrcOn = true
  /-- While in use and enabled, the chip was last woken or put to sleep (R111, R123). -/
  enabledMode : s.lifecycle = .attached → s.enabled = true → s.chipMode = .awake ∨ s.chipMode = .asleep
  /-- Every event is one the block may emit (R59, R116). -/
  traceLegal : ∀ e ∈ s.trace, e.legal s.config = true
  /-- Only the host presents words. -/
  hostOnly : ∀ w ∈ s.pending, w.isRequest = true

/-- A register that holds no value, or a whole byte that satisfies `ok`. -/
def RegVal.noValueOr (r : RegVal) (ok : Byte → Prop) : Prop :=
  r = RegVal.noValue ∨ ∃ v, r = RegVal.full v ∧ ok v

/-- What the chip's registers can hold while only the block writes them (10_state.md). -/
structure State.RegsInv (s : State) : Prop where
  /-- RESET_CTRL: wake, sleep or its default; never the reset code itself, unless that is the default (R24, R39). -/
  resetCtrl : (s.reg 0).noValueOr fun v => v = 0x00#8 ∨ v = 0x08#8 ∨ v = regDefaultAt s.config 0
  /-- FLASH_PERIOD: 1..126 or its default (R25). -/
  period : (s.reg 1).noValueOr fun v => (1 ≤ v.toNat ∧ v.toNat ≤ 126) ∨ v = regDefaultAt s.config 1
  /-- PWM1_TIMER: any byte (R26). -/
  duty : (s.reg 2).noValueOr fun _ => True
  /-- PWM2_TIMER: its default (R27). -/
  pwm2 : (s.reg 3).noValueOr fun v => v = regDefaultAt s.config 3
  /-- CHANNEL_CTRL: each field holds a value as a whole or not at all (R28, R38). -/
  ctrlWhole : ∀ c, c < 4 →
    (s.reg 4).known.extractLsb' (2 * c) 2 = 0#2 ∨ (s.reg 4).known.extractLsb' (2 * c) 2 = 3#2
  /-- CHANNEL_CTRL: the block writes only `00`, `01` and `10` (R28). -/
  ctrlFields : ∀ c, c < 4 → s.channelMode c = some 3#2 →
    (regDefaultAt s.config 4).extractLsb' (2 * c) 2 = 3#2
  /-- CHANNEL_CTRL: a field of no channel is never written (R28). -/
  ctrlSpare : ∀ c, s.config.channelCount ≤ c → c < 4 → ∀ f, s.channelMode c = some f →
    f = (regDefaultAt s.config 4).extractLsb' (2 * c) 2
  /-- RISE_FALL: its default (R29). -/
  riseFall : (s.reg 5).noValueOr fun v => v = regDefaultAt s.config 5
  /-- ILED[c]: codes 0..254 or its default (R30). -/
  iled : ∀ c, c < s.config.channelCount →
    (s.reg (6 + c)).noValueOr fun v => v.toNat ≤ 254 ∨ v = regDefaultAt s.config (6 + c)

/-- The state without the record of the power source and of the chip: what the block itself can branch on (R17, R40). -/
def State.forgetChip (s : State) : State :=
  ((s.setPsrcOn false).setImage RegImage.empty).setChipMode .unset

end Sys2Proof.Machine
end

