-- ==== Sys2Proof/Certificates/Slice0/Obligations.lean ====
section
/-! DEFINITION. The statements for the provers.  Each is about every state unless it names an invariant; "log n" is
notes/assumptions/n.md. -/

open Sys2Proof Sys2Proof.Machine

/-! ### Encoding and the step -/

/-- The step serves the first waiting word: it runs the instruction the word decodes to on the state without that word, and
adds nothing around it; with nothing waiting the block is idle (R21, R47, D1).  The model's choices: the queue (log 6), that a
bus word that is no form of R59 is refused by name (log 12), and the port at which `withFetchWord` puts a row's word
(log 13). -/
def Obligations.StepRunsDecodedInstruction : Prop :=
  (∀ (s : State) (w : PortWord) (rest : List PortWord), s.pending = w :: rest →
    (∀ i, decode w = .ok i → step s = exec i (s.setPending rest)) ∧
    (∀ e, decode w = .error e → step s = .refused (.notABusForm e))) ∧
  (∀ s : State, s.pending = [] → step s = .next s) ∧
  (∀ (s : State) (nbits w : Nat), s.withFetchWord nbits w = s.setPending (tablePort nbits w :: s.pending))

/-- Decoding the encoding of any instruction gives it back, every operand at every value. -/
def Obligations.DecodeEncodeRoundTrip : Prop :=
  ∀ i : Instr, decode (encode i) = .ok i

/-- A bus-transaction word that decodes is the encoding of what it decodes to: no two words have one meaning. -/
def Obligations.BusWordHasOneMeaning : Prop :=
  ∀ (w : BusWord) (i : Instr), decodeBus w = .ok i → encode i = .bus w

/-- R53: request words that differ only in VALUE, and in TARGET where the operation is not SET_BRIGHTNESS or SET_BLINK, where the
operation ignores them, are one instruction; and where a request other than SET_BLINK is legal (R56, R62), ON_MS and OFF_MS
have no effect on it. -/
def Obligations.IgnoredRequestFieldsHaveNoEffect : Prop :=
  (∀ w w' : RequestWord,
    w.extractLsb' 0 4 = w'.extractLsb' 0 4 → w.extractLsb' 16 128 = w'.extractLsb' 16 128 →
    (w.extractLsb' 0 4 = 1#4 → w.extractLsb' 4 12 = w'.extractLsb' 4 12) →
    (w.extractLsb' 0 4 = 2#4 → w.extractLsb' 4 4 = w'.extractLsb' 4 4) →
    decodeRequest w = decodeRequest w') ∧
  ∀ (s : State) (on off on' off' : Millis),
    (∀ (t : BitVec 4) (v : Byte), s.lifecycle = .attached → t.toNat < s.config.ledCount →
      exec (.setBrightness t v on off) s = exec (.setBrightness t v on' off') s) ∧
    (s.lifecycle = .uninit ∨ s.lifecycle = .removed → exec (.attach on off) s = exec (.attach on' off') s) ∧
    (s.lifecycle = .attached ∨ s.lifecycle = .shutdown → exec (.detach on off) s = exec (.detach on' off') s) ∧
    (s.lifecycle = .attached → exec (.shutdown on off) s = exec (.shutdown on' off') s)

/-- R57: the response word carries STATUS, ON_OUT and OFF_OUT at their places, and can be read back. -/
def Obligations.ResponseWordCarriesFields : Prop :=
  ∀ r : Response, decodeResponse r.word = some r ∧
    r.word.extractLsb' 0 3 = r.status.code ∧ r.word.extractLsb' 3 64 = r.onOut ∧ r.word.extractLsb' 67 64 = r.offOut

/-- R66: the worked encodings. -/
def Obligations.WorkedEncodings : Prop :=
  (∃ w : RequestWord, encode (.setBrightness 0#4 128#8 0#64 0#64) = .request w ∧
    w.extractLsb' 0 16 = 0x8001#16 ∧ w.extractLsb' 16 64 = 0#64 ∧ w.extractLsb' 80 64 = 0#64 ∧
    w.extractLsb' 0 4 = 1#4 ∧ w.extractLsb' 4 4 = 0#4 ∧ w.extractLsb' 8 8 = 0x80#8) ∧
  (∃ w : RequestWord, encode (.setBlink 1#4 500#64 500#64) = .request w ∧
    w.extractLsb' 0 16 = 0x0012#16 ∧ w.extractLsb' 16 64 = 0x1F4#64 ∧ w.extractLsb' 80 64 = 0x1F4#64) ∧
  (∃ w : RequestWord, encode (.attach 0#64 0#64) = .request w ∧ w.extractLsb' 0 16 = 0x0003#16) ∧
  encode (.updCtrl 0x0C#8 0x04#8) = .bus 0x1040C04#26

/-- One word of each family, written out from R53, R54 and R59, decodes to the instruction it stands for. -/
def Obligations.FamilyWordsDecode : Prop :=
  decode (.request 0x00000000000000000000000000000000FF31#144) = .ok (.setBrightness 3#4 255#8 0#64 0#64) ∧
  decode (.request 0x00000000000001F400000000000001F40012#144) = .ok (.setBlink 1#4 500#64 500#64) ∧
  decode (.request 0x000000000000000000000000000000000003#144) = .ok (.attach 0#64 0#64) ∧
  decode (.request 0x000000000000000000000000000000000004#144) = .ok (.detach 0#64 0#64) ∧
  decode (.request 0x000000000000000000000000000000000005#144) = .ok (.shutdown 0#64 0#64) ∧
  decode (.request 0x00000000000000090000000000000009072F#144) = .ok (.reservedOp8F 7#3 9#64 9#64) ∧
  decode (.bus 0x000FF07#26) = .ok .resetCmd ∧ decode (.bus 0x000FF08#26) = .ok .sleepCmd ∧
  decode (.bus 0x000FF00#26) = .ok .wakeCmd ∧ decode (.bus 0x001FF07#26) = .ok (.wrPeriod 7#8) ∧
  decode (.bus 0x002FF80#26) = .ok (.wrPwm1 0x80#8) ∧ decode (.bus 0x104CC88#26) = .ok (.updCtrl 0xCC#8 0x88#8) ∧
  decode (.bus 0x009FFFE#26) = .ok (.wrIled3 254#8)

/-! ### Requests that are answered without effect -/

/-- R61: a request word with OP 0x0 or 0x6..0xF is answered ILLEGAL_REQUEST with its ON_MS and OFF_MS, in every state; nothing
else happens.  So each of the three reserved rows completes everywhere. -/
def Obligations.ReservedOpcodesAnsweredIllegal : Prop :=
  (∀ (s : State) (w : RequestWord), w.extractLsb' 0 4 = 0#4 ∨ 6 ≤ (w.extractLsb' 0 4).toNat →
    exec (decodeRequest w) s =
      .next (s.respond ⟨.illegalRequest, w.extractLsb' 16 64, w.extractLsb' 80 64⟩)) ∧
  ∀ (s : State) (on off : Millis) (low1 : BitVec 1) (low3 : BitVec 3),
    exec (.reservedOp0 on off) s = .next (s.respond ⟨.illegalRequest, on, off⟩) ∧
    exec (.reservedOp67 low1 on off) s = .next (s.respond ⟨.illegalRequest, on, off⟩) ∧
    exec (.reservedOp8F low3 on off) s = .next (s.respond ⟨.illegalRequest, on, off⟩)

/-- R62: a request in a lifecycle state where the table does not admit it is answered ILLEGAL_REQUEST with its times and
nothing else happens; where the table admits it and its target exists, it is answered with another status. -/
def Obligations.LifecycleDecidesLegality : Prop :=
  ∀ (i : Instr) (s : State), i.isRequest = true →
    (s.lifecycle ∉ legalLifecycles i → exec i s = .next (s.respond ⟨.illegalRequest, i.onMs, i.offMs⟩)) ∧
    (s.lifecycle ∈ legalLifecycles i → (∀ t, i.target? = some t → t.toNat < s.config.ledCount) →
      ∃ u r, exec i s = .next u ∧ s.Answers u r ∧ r.status ≠ .illegalRequest)

/-- R56: a TARGET that names no logical LED is answered ILLEGAL_REQUEST, with no event and no state change. -/
def Obligations.IllegalTargetAnswered : Prop :=
  ∀ (s : State) (t : BitVec 4) (v : Byte) (on off : Millis), s.config.ledCount ≤ t.toNat →
    exec (.setBrightness t v on off) s = .next (s.respond ⟨.illegalRequest, on, off⟩) ∧
    exec (.setBlink t on off) s = .next (s.respond ⟨.illegalRequest, on, off⟩)

/-! ### The bus-transaction forms -/

/-- R37, R59: each WRITE form whose register exists completes: the event is emitted with the drawn result; when it takes
effect the register holds the byte; every other register, and everything of the block, is unchanged.  Running such a form
on its own is the model's choice (log 7). -/
def Obligations.WriteFormsComplete : Prop :=
  ∀ (s : State) (i : Instr) (a v : Byte), i.writeForm? = some (a, v) → s.image.wf = true →
    a.toNat < regCount s.config →
    ∃ u, exec i s = .next u ∧
      (∀ b, u.reg b = if s.effective ∧ b = a.toNat then RegVal.full v else s.reg b) ∧
      s.Emits u [.bus .write a 0xFF#8 v (s.drawAt 0).result] ∧
      (a ≠ 0x00#8 → u.chipMode = s.chipMode) ∧
      u.lifecycle = s.lifecycle ∧ u.enabled = s.enabled ∧ u.psrcOn = s.psrcOn ∧ u.ledBright = s.ledBright ∧
      u.chBright = s.chBright ∧ u.config = s.config ∧ u.responses = s.responses ∧ u.pending = s.pending ∧
      u.drawn = s.drawn + 1 ∧ ∀ k, u.drawAt k = s.drawAt (k + 1)

/-- R39: RESET_CMD completes and, when it takes effect, sets every register, RESET_CTRL included, to REG_DEFAULT; SLEEP_CMD
and WAKE_CMD then set REG[0] to their byte and change no other register.  That the forms run on their own is the model's
choice (log 7). -/
def Obligations.ResetCtrlCommands : Prop :=
  ∀ s : State, s.image.wf = true →
    (∃ u, exec .resetCmd s = .next u ∧
      (s.effective → ∀ a, a < regCount s.config → u.reg a = RegVal.full (regDefaultAt s.config a)) ∧
      (¬s.effective → u.image = s.image) ∧
      s.Emits u [.bus .write 0x00#8 0xFF#8 0x07#8 (s.drawAt 0).result] ∧
      u.lifecycle = s.lifecycle ∧ u.enabled = s.enabled ∧ u.psrcOn = s.psrcOn ∧ u.ledBright = s.ledBright ∧
      u.chBright = s.chBright ∧ u.config = s.config ∧ u.responses = s.responses ∧ u.pending = s.pending ∧
      u.drawn = s.drawn + 1 ∧ ∀ k, u.drawAt k = s.drawAt (k + 1)) ∧
    (∃ u, exec .sleepCmd s = .next u ∧
      (s.effective → u.reg 0 = RegVal.full 0x08#8 ∧ ∀ a, a ≠ 0 → u.reg a = s.reg a)) ∧
    (∃ u, exec .wakeCmd s = .next u ∧
      (s.effective → u.reg 0 = RegVal.full 0x00#8 ∧ ∀ a, a ≠ 0 → u.reg a = s.reg a))

/-- R38: UPD_CTRL completes; when it takes effect each bit of CHANNEL_CTRL inside the mask holds the new bit, each bit outside
it is as before, with or without a value; no other register changes.  That the form runs on its own is the model's choice
(log 7). -/
def Obligations.UpdCtrlChangesMaskedBitsOnly : Prop :=
  ∀ (s : State) (m v : Byte), s.image.wf = true →
    ∃ u, exec (.updCtrl m v) s = .next u ∧
      (s.effective → ∀ k, k < 8 →
        (u.reg 4).known.getLsbD k = (m.getLsbD k || (s.reg 4).known.getLsbD k) ∧
        (u.reg 4).bits.getLsbD k = (if m.getLsbD k then v.getLsbD k else (s.reg 4).bits.getLsbD k)) ∧
      (¬s.effective → u.image = s.image) ∧ (∀ a, a ≠ 4 → u.reg a = s.reg a) ∧
      s.Emits u [.bus .update 0x04#8 m v (s.drawAt 0).result] ∧
      u.lifecycle = s.lifecycle ∧ u.enabled = s.enabled ∧ u.psrcOn = s.psrcOn ∧ u.ledBright = s.ledBright ∧
      u.chBright = s.chBright ∧ u.chipMode = s.chipMode ∧ u.config = s.config ∧ u.responses = s.responses ∧
      u.pending = s.pending ∧ u.drawn = s.drawn + 1 ∧ ∀ k, u.drawAt k = s.drawAt (k + 1)

/-- WR_ILED3 stops on a 3-channel chip, which has no register there (R34; the stop is the model's choice, log 8), and
completes on a 4-channel chip, where R59 has the form (that it runs on its own is the model's choice, log 7). -/
def Obligations.WrIled3NeedsChannelThree : Prop :=
  ∀ (s : State) (code : Byte),
    (s.config.channelCount = 3 → exec (.wrIled3 code) s = .fault (.noRegister 0x09#8)) ∧
    (s.config.channelCount = 4 → ∃ u, exec (.wrIled3 code) s = .next u)

/-- R75: a successful CTRL_SET of channel `c`, or GROUP_CTRL of channels without `d`, leaves channel `d`'s field as it was. -/
def Obligations.SiblingFieldsUnchanged : Prop :=
  ∀ (s : State) (d : Nat) (f : BitVec 2), s.image.wf = true → d < 4 →
    (∀ c, c < 4 → c ≠ d → (ctrlSet c f s).raised = none → (ctrlSet c f s).state.ctrlField d = s.ctrlField d) ∧
    (∀ cs : List Nat, (∀ c ∈ cs, c < 4) → d ∉ cs → (groupCtrl cs f s).raised = none →
      (groupCtrl cs f s).state.ctrlField d = s.ctrlField d)

/-- R41: a power-source disable that returns OK takes every register's value, unless RETAIN_ON_POWER_OFF keeps the image. -/
def Obligations.PowerOffLosesImage : Prop :=
  ∀ s : State, (powerDisable s).1 = .ok →
    (s.config.retainOnPowerOff = false → ∀ a, (powerDisable s).2.reg a = RegVal.noValue) ∧
    (s.config.retainOnPowerOff = true → (powerDisable s).2.image = s.image)

/-! ### Brightness -/

/-- The brightness map: 0 is written as 0, `b` in 1..255 as `b - 1`; the mode is off at 0 and always-on otherwise; so 0 and 1
differ only in the control field (R71, R72). -/
def Obligations.BrightnessCodeAndMode : Prop :=
  iledCode 0#8 = 0#8 ∧ modeFor 0#8 = 0#2 ∧
  (∀ b : Byte, 1 ≤ b.toNat → (iledCode b).toNat = b.toNat - 1 ∧ modeFor b = 1#2) ∧
  ∀ b : Byte, (iledCode b).toNat ≤ 254

/-- Group scaling: `(overall * weight) div 255`, for every 8-bit weight, with its end points (R73). -/
def Obligations.GroupScalingExact : Prop :=
  ∀ (ov : Byte) (w : Nat), w ≤ 255 →
    (scaledOutput ov w).toNat = ov.toNat * w / 255 ∧ scaledOutput ov 255 = ov ∧
    (scaledOutput 255#8 w).toNat = w ∧ scaledOutput ov 0 = 0#8 ∧ scaledOutput 0#8 w = 0#8 ∧
    (ov.toNat * w < 255 → scaledOutput ov w = 0#8)

/-- SET_BRIGHTNESS with every answer OK (R78, R79, R80): wake events where the chip must wake, both events of each member channel
in configuration order, sleep events where it must sleep; the stored brightnesses; status OK; `ENABLED` equals the activity
predicate; after a power-down that does not retain them the registers hold no value (R124). -/
def Obligations.SetBrightnessAllOk : Prop :=
  ∀ (s : State) (t : BitVec 4) (v : Byte) (on off : Millis) (led : Led),
    s.lifecycle = .attached → targetLed s t = some led → s.okFor (2 * (ledOutputs v led).length + 4) →
    ∃ u, exec (.setBrightness t v on off) s = .next u ∧
      u.trace = s.trace ++ (if s.mustWake (s.ledBright.set t.toNat v) then wakeEvents else []) ++
        (ledOutputs v led).flatMap (fun x => channelEvents x.1 x.2) ++
        (if s.mustSleep (s.ledBright.set t.toNat v) then sleepEvents else []) ∧
      s.Answers u ⟨.ok, 0#64, 0#64⟩ ∧
      u.ledBright = s.ledBright.set t.toNat v ∧
      u.chBright = (ledOutputs v led).foldl (fun b x => b.set x.1 x.2) s.chBright ∧
      u.enabled = u.active ∧
      u.psrcOn = (!s.mustSleep (s.ledBright.set t.toNat v) && (s.psrcOn || s.mustWake (s.ledBright.set t.toNat v))) ∧
      (s.mustSleep (s.ledBright.set t.toNat v) = true → s.config.retainOnPowerOff = false →
        ∀ a, u.reg a = RegVal.noValue) ∧
      u.lifecycle = s.lifecycle ∧ u.config = s.config ∧ u.pending = s.pending

/-- The registers after a SET_BRIGHTNESS with every answer OK whose body runs on a powered chip, whether or not an LED is active
after it (R41, R77, R78): each member's current code and mode; every other channel's field, and every register but
RESET_CTRL, CHANNEL_CTRL and the members' current registers, as before; RESET_CTRL by the last wake or sleep.  A power-down
that does not retain the registers takes all values.  The model's record of the chip's power state (log 11) follows. -/
def Obligations.SetBrightnessRegisters : Prop :=
  ∀ (s : State) (t : BitVec 4) (v : Byte) (on off : Millis) (led : Led),
    s.lifecycle = .attached → cfgValid s.config = true → s.image.wf = true →
    targetLed s t = some led → s.poweredFor (s.ledBright.set t.toNat v) → s.okFor (2 * (ledOutputs v led).length + 4) →
    ∃ u, exec (.setBrightness t v on off) s = .next u ∧
      (s.keepsImage (s.ledBright.set t.toNat v) →
        (∀ x ∈ ledOutputs v led, u.reg (6 + x.1) = RegVal.full (iledCode x.2) ∧ u.channelMode x.1 = some (modeFor x.2)) ∧
        (∀ d, d < 4 → d ∉ ledMembers led → u.ctrlField d = s.ctrlField d) ∧
        (∀ a, a ≠ 0 → a ≠ 4 → (∀ c ∈ ledMembers led, a ≠ 6 + c) → u.reg a = s.reg a) ∧
        u.reg 0 = s.resetCtrlAfter (s.ledBright.set t.toNat v)) ∧
      (¬s.keepsImage (s.ledBright.set t.toNat v) → ∀ a, u.reg a = RegVal.noValue) ∧
      u.chipMode = s.chipModeAfter (s.ledBright.set t.toNat v)

/-- R81: SET_BRIGHTNESS to 0 on the only active LED of an enabled chip. -/
def Obligations.LastLedOffPowersDown : Prop :=
  ∀ (s : State) (t : BitVec 4) (on off : Millis) (led : Led),
    s.lifecycle = .attached → s.enabled = true → targetLed s t = some led →
    (∃ b, s.ledBright[t.toNat]? = some b ∧ b ≠ 0#8) →
    (∀ l b, l ≠ t.toNat → s.ledBright[l]? = some b → b = 0#8) →
    s.okFor (2 * (ledMembers led).length + 2) →
    ∃ u, exec (.setBrightness t 0#8 on off) s = .next u ∧
      u.trace = s.trace ++ (ledMembers led).flatMap (fun c => ([.bus .write (BitVec.ofNat 8 (0x06 + c)) 0xFF#8 0#8 .ok,
          .bus .update 0x04#8 (0b11#8 <<< (2 * c)) 0#8 .ok] : List Event)) ++
        ([.bus .write 0x00#8 0xFF#8 0x08#8 .ok, .pwr .disable .ok] : List Event) ∧
      u.enabled = false

/-- ENSURE_ENABLED fails inside a SET_BRIGHTNESS or SET_BLINK, on any path (R68, R79, R80, R89, R90, R91, R92): a failed enable is
the only event and answers POWER_ERROR; a failed wake is followed by the compensating disable, whatever that returns, and
answers BUS_ERROR; no register of the body is written, `ENABLED` stays 0, and the requested brightness is kept.  RESET_CTRL
changes when the failed wake took effect; a disable answered OK takes every value unless the chip retains them.  `chipMode` is
the model's record (log 11). -/
def Obligations.PowerUpFailureEndsRequest : Prop :=
  ∀ (s : State) (i : Instr) (t : BitVec 4) (led : Led), i.target? = some t →
    s.lifecycle = .attached → s.image.wf = true → targetLed s t = some led → s.mustWake (i.newBright s.ledBright) = true →
    ((s.drawAt 0).result = .err →
      ∃ u, exec i s = .next u ∧
        s.Emits u [.pwr .enable .err] ∧ s.Answers u ⟨.powerError, i.errorTimes.1, i.errorTimes.2⟩ ∧
        u.image = s.image ∧ u.chipMode = s.chipMode ∧ u.psrcOn = s.psrcOn ∧ u.enabled = false ∧
        u.ledBright = i.newBright s.ledBright ∧ u.chBright = s.chBright ∧ u.lifecycle = s.lifecycle ∧
        u.config = s.config ∧ u.pending = s.pending) ∧
    ((s.drawAt 0).result = .ok → (s.drawAt 1).result = .err →
      ∃ u, exec i s = .next u ∧
        s.Emits u [.pwr .enable .ok, .bus .write 0x00#8 0xFF#8 0x00#8 .err,
          .pwr .disable (s.drawAt 2).result] ∧
        s.Answers u ⟨.busError, i.errorTimes.1, i.errorTimes.2⟩ ∧
        u.psrcOn = ((s.drawAt 2).result == .err) ∧ u.enabled = false ∧
        ((s.drawAt 2).result = .ok → s.config.retainOnPowerOff = false → ∀ a, u.reg a = RegVal.noValue) ∧
        ((s.drawAt 2).result = .err ∨ s.config.retainOnPowerOff = true →
          u.reg 0 = (if (s.drawAt 1).applied then RegVal.full 0x00#8 else s.reg 0) ∧ ∀ a, a ≠ 0 → u.reg a = s.reg a) ∧
        u.chipMode = (if (s.drawAt 2).result = .ok then .unset else if (s.drawAt 1).applied then .awake
          else if s.psrcOn then s.chipMode else .unset) ∧
        u.ledBright = i.newBright s.ledBright ∧ u.chBright = s.chBright ∧ u.lifecycle = s.lifecycle ∧
        u.config = s.config ∧ u.pending = s.pending)

/-- A BusError in the body of SET_BRIGHTNESS on a powered chip (R77, R78, R99, R100): when the `k`-th transaction of the body is the
first answered ERR, the request ends there with BUS_ERROR; the later transactions, of this member and of the later ones, are not
issued; what was written stands, the failing write included when its effect is drawn as applied; nothing is powered down; the
requested brightnesses are kept, of the channels that were reached.  `chipMode` is the model's record (log 11). -/
def Obligations.BodyBusErrorStopsWithoutRollback : Prop :=
  ∀ (s : State) (t : BitVec 4) (v : Byte) (on off : Millis) (led : Led) (w k : Nat),
    s.lifecycle = .attached → cfgValid s.config = true → s.image.wf = true → targetLed s t = some led →
    s.poweredFor (s.ledBright.set t.toNat v) → w = s.wakeDraws (s.ledBright.set t.toNat v) →
    k < 2 * (ledOutputs v led).length → s.okFor (w + k) → (s.drawAt (w + k)).result = .err →
    ∃ u, exec (.setBrightness t v on off) s = .next u ∧
      u.trace = s.trace ++ (if s.mustWake (s.ledBright.set t.toNat v) then wakeEvents else []) ++
        cutAt ((ledOutputs v led).flatMap fun x => channelEvents x.1 x.2) k ∧
      s.Answers u ⟨.busError, 0#64, 0#64⟩ ∧
      (∀ j x, (ledOutputs v led)[j]? = some x →
        u.reg (6 + x.1) = (if s.wrote w k (2 * j) then RegVal.full (iledCode x.2) else s.reg (6 + x.1)) ∧
        (s.wrote w k (2 * j + 1) = true → u.channelMode x.1 = some (modeFor x.2)) ∧
        (s.wrote w k (2 * j + 1) = false → u.ctrlField x.1 = s.ctrlField x.1)) ∧
      (∀ d, d < 4 → d ∉ ledMembers led → u.ctrlField d = s.ctrlField d) ∧
      (∀ a, a ≠ 0 → a ≠ 4 → (∀ c ∈ ledMembers led, a ≠ 6 + c) → u.reg a = s.reg a) ∧
      u.reg 0 = (if s.mustWake (s.ledBright.set t.toNat v) then RegVal.full 0x00#8 else s.reg 0) ∧
      u.chipMode = (if s.mustWake (s.ledBright.set t.toNat v) then .awake else s.chipMode) ∧
      u.ledBright = s.ledBright.set t.toNat v ∧
      u.chBright = ((ledOutputs v led).take (k / 2 + 1)).foldl (fun b x => b.set x.1 x.2) s.chBright ∧
      u.enabled = (s.enabled || s.mustWake (s.ledBright.set t.toNat v)) ∧ u.psrcOn = true ∧
      u.lifecycle = s.lifecycle ∧ u.config = s.config ∧ u.pending = s.pending

/-- The failures of ENSURE_DISABLED are swallowed (R69, R101): turning off the only active LED answers OK whatever the sleep write
and the disable return, and `ENABLED` is cleared exactly when the disable returned OK. -/
def Obligations.PowerDownFailuresSwallowed : Prop :=
  ∀ (s : State) (t : BitVec 4) (on off : Millis) (led : Led),
    s.lifecycle = .attached → s.enabled = true → targetLed s t = some led →
    (∀ l b, l ≠ t.toNat → s.ledBright[l]? = some b → b = 0#8) → s.okFor (2 * (ledMembers led).length) →
    ∃ u, exec (.setBrightness t 0#8 on off) s = .next u ∧
      s.Answers u ⟨.ok, 0#64, 0#64⟩ ∧
      u.trace = s.trace ++ (ledOutputs 0#8 led).flatMap (fun x => channelEvents x.1 x.2) ++
        ([.bus .write 0x00#8 0xFF#8 0x08#8 (s.drawAt (2 * (ledMembers led).length)).result,
         .pwr .disable (s.drawAt (2 * (ledMembers led).length + 1)).result] : List Event) ∧
      u.enabled = ((s.drawAt (2 * (ledMembers led).length + 1)).result == .err)

/-- R16: a SET_BRIGHTNESS or SET_BLINK that ends OK and whose power calls all returned OK leaves `ENABLED = 1` iff some LED is
active; after a PowerError, and after a swallowed disable failure, it can fail. -/
def Obligations.EnabledMatchesActivity : Prop :=
  (∀ (i : Instr) (s u : State), i.target? ≠ none → exec i s = .next u →
    (∃ r, s.Answers u r ∧ r.status = .ok) →
    (∀ e ∈ s.newEvents u, e.powerError = false) → u.enabled = u.active) ∧
  (∃ (i : Instr) (s u : State), i.target? ≠ none ∧ exec i s = .next u ∧
    (∃ r, s.Answers u r ∧ r.status = .powerError) ∧ u.enabled = false ∧ u.active = true) ∧
  (∃ (i : Instr) (s u : State), i.target? ≠ none ∧ exec i s = .next u ∧
    (∃ r, s.Answers u r ∧ r.status = .ok) ∧ .pwr .disable .err ∈ s.newEvents u ∧
    u.enabled = true ∧ u.active = false)

/-! ### Blink -/

/-- R84: the step count and the period by the sum of the times. -/
def Obligations.StepCountByRequestedSum : Prop :=
  (∀ S, 2 ≤ S → S ≤ 256 → quantizedSteps S = 1 ∧ periodMs (quantizedSteps S) = 384) ∧
  (∀ S, 257 ≤ S → S ≤ 384 → quantizedSteps S = 2 ∧ periodMs (quantizedSteps S) = 512) ∧
  (∀ S k, 1 ≤ k → k ≤ 125 → 256 + 128 * (k - 1) + 1 ≤ S → S ≤ 256 + 128 * k →
    quantizedSteps S = k + 1 ∧ periodMs (quantizedSteps S) = 128 * (k + 1) + 256) ∧
  (∀ S, 16257 ≤ S → quantizedSteps S = 126 ∧ periodMs (quantizedSteps S) = 16384) ∧
  (∀ S, 256 < S → quantizedSteps S = min 126 ((S - 256 + 127) / 128 + 1))

/-- QUANTIZE's results (R82, R83): the two times add up to the period; the counts fit their registers; the duty code is the
requested ratio rounded down. -/
def Obligations.QuantizeResultsFit : Prop :=
  ∀ on off : Nat, 1 ≤ on → 1 ≤ off →
    1 ≤ (quantize on off).steps ∧ (quantize on off).steps ≤ 126 ∧ (quantize on off).code ≤ 255 ∧
    (quantize on off).actualOn + (quantize on off).actualOff = (quantize on off).steps * 128 + 256 ∧
    (quantize on off).code * (on + off) ≤ on * 256 ∧ on * 256 < ((quantize on off).code + 1) * (on + off) ∧
    (quantize on off).actualOn * 256 ≤ ((quantize on off).steps * 128 + 256) * (quantize on off).code ∧
    ((quantize on off).steps * 128 + 256) * (quantize on off).code < ((quantize on off).actualOn + 1) * 256

/-- R86: QUANTIZE of its own output grows the period by one step until 126 and lowers the duty code by at most one; it is no
fixed point, as (576, 576) and (640, 640) show. -/
def Obligations.RequantizationGrowsOneStep : Prop :=
  (∀ on off : Nat, 1 ≤ on → 1 ≤ off →
    (quantize (quantize on off).actualOn (quantize on off).actualOff).steps = min 126 ((quantize on off).steps + 1) ∧
    ((quantize (quantize on off).actualOn (quantize on off).actualOff).code + 1 = (quantize on off).code ∨
      (quantize (quantize on off).actualOn (quantize on off).actualOff).code = (quantize on off).code)) ∧
  ((quantize 576 576).actualOn = 640 ∧ (quantize 576 576).actualOff = 640) ∧
  ((quantize 640 640).actualOn = 704 ∧ (quantize 640 640).actualOff = 704)

/-- R85: inside the exactness band the bytes written and the times returned are QUANTIZE's, none cut off; outside it the step
count is still in 1..126. -/
def Obligations.TimingExactInsideBand : Prop :=
  ∀ (on off : Millis) (s : State), on ≠ 0#64 → off ≠ 0#64 →
    (on.toNat < 2 ^ 56 → on.toNat + off.toNat < 2 ^ 64 →
      (blinkTiming on off s).steps.toNat = (quantize on.toNat off.toNat).steps ∧
      (blinkTiming on off s).code.toNat = (quantize on.toNat off.toNat).code ∧
      (blinkTiming on off s).onOut.toNat = (quantize on.toNat off.toNat).actualOn ∧
      (blinkTiming on off s).offOut.toNat = (quantize on.toNat off.toNat).actualOff) ∧
    1 ≤ (blinkTiming on off s).steps.toNat ∧ (blinkTiming on off s).steps.toNat ≤ 126

/-- SET_BLINK on the general path with every answer OK (R91), inside the exactness band and outside it: period, duty, one combined
control update, within the power events; the achieved times are returned; no brightness changes. -/
def Obligations.BlinkGeneralAllOk : Prop :=
  ∀ (s : State) (t : BitVec 4) (on off : Millis) (led : Led),
    s.lifecycle = .attached → targetLed s t = some led → on ≠ 0#64 → off ≠ 0#64 → s.okFor 7 →
    ∃ u, exec (.setBlink t on off) s = .next u ∧
      u.trace = s.trace ++ (if s.mustWake s.ledBright then wakeEvents else []) ++
        ([.bus .write 0x01#8 0xFF#8 (blinkTiming on off s).steps .ok,
         .bus .write 0x02#8 0xFF#8 (blinkTiming on off s).code .ok,
         .bus .update 0x04#8 (groupMask (ledMembers led)) (groupData 2#2 (ledMembers led)) .ok] : List Event) ++
        (if s.mustSleep s.ledBright then sleepEvents else []) ∧
      s.Answers u ⟨.ok, (blinkTiming on off s).onOut, (blinkTiming on off s).offOut⟩ ∧
      u.ledBright = s.ledBright ∧ u.chBright = s.chBright ∧ u.enabled = u.active ∧
      u.psrcOn = (!s.mustSleep s.ledBright && (s.psrcOn || s.mustWake s.ledBright)) ∧
      u.lifecycle = s.lifecycle ∧ u.config = s.config ∧ u.pending = s.pending

/-- The registers after a general-path SET_BLINK with every answer OK whose body runs on a powered chip, whether or not an LED is
active (R41, R91): the period and duty registers, the members' fields at blink pattern 1; every other field and register as
before but RESET_CTRL, which the last wake or sleep set.  A power-down that does not retain the registers takes all values.  The
model's record of the chip's power state (log 11) follows. -/
def Obligations.BlinkGeneralRegisters : Prop :=
  ∀ (s : State) (t : BitVec 4) (on off : Millis) (led : Led),
    s.lifecycle = .attached → cfgValid s.config = true → s.image.wf = true →
    targetLed s t = some led → on ≠ 0#64 → off ≠ 0#64 → s.poweredFor s.ledBright → s.okFor 7 →
    ∃ u, exec (.setBlink t on off) s = .next u ∧
      (s.keepsImage s.ledBright →
        u.reg 1 = RegVal.full (blinkTiming on off s).steps ∧ u.reg 2 = RegVal.full (blinkTiming on off s).code ∧
        (∀ c ∈ ledMembers led, u.channelMode c = some 2#2) ∧
        (∀ d, d < 4 → d ∉ ledMembers led → u.ctrlField d = s.ctrlField d) ∧
        (∀ a, a ≠ 0 → a ≠ 1 → a ≠ 2 → a ≠ 4 → u.reg a = s.reg a) ∧
        u.reg 0 = s.resetCtrlAfter s.ledBright) ∧
      (¬s.keepsImage s.ledBright → ∀ a, u.reg a = RegVal.noValue) ∧
      u.chipMode = s.chipModeAfter s.ledBright

/-- A BusError in the body of SET_BLINK's general or always-on path on a powered chip (R89, R91, R92, R99, R100, R119): when the
`k`-th transaction of the body (period, duty, control fields; on the always-on path the control fields alone) is the first
answered ERR, the request ends there with BUS_ERROR and the requested times; what was written before stands, and the failing
write when its effect is drawn as applied; every other register and the brightnesses are as before, and nothing is powered down.
`chipMode` is the model's record (log 11). -/
def Obligations.BlinkBusErrorLeavesPartialUpdate : Prop :=
  ∀ (s : State) (t : BitVec 4) (on off : Millis) (led : Led) (w k : Nat),
    s.lifecycle = .attached → s.image.wf = true → targetLed s t = some led → on ≠ 0#64 →
    s.poweredFor s.ledBright → w = s.wakeDraws s.ledBright → s.okFor (w + k) → (s.drawAt (w + k)).result = .err →
    (off ≠ 0#64 ∧ k < 3) ∨ (off = 0#64 ∧ k = 0) →
    ∃ u, exec (.setBlink t on off) s = .next u ∧ s.Answers u ⟨.busError, on, off⟩ ∧
      (off ≠ 0#64 →
        u.trace = s.trace ++ (if s.mustWake s.ledBright then wakeEvents else []) ++
          cutAt [.bus .write 0x01#8 0xFF#8 (blinkTiming on off s).steps .ok,
            .bus .write 0x02#8 0xFF#8 (blinkTiming on off s).code .ok,
            .bus .update 0x04#8 (groupMask (ledMembers led)) (groupData 2#2 (ledMembers led)) .ok] k ∧
        u.reg 1 = (if s.wrote w k 0 then RegVal.full (blinkTiming on off s).steps else s.reg 1) ∧
        u.reg 2 = (if s.wrote w k 1 then RegVal.full (blinkTiming on off s).code else s.reg 2) ∧
        u.reg 4 = (if s.wrote w k 2 then
          (s.reg 4).update (groupMask (ledMembers led)) (groupData 2#2 (ledMembers led)) else s.reg 4)) ∧
      (off = 0#64 →
        u.trace = s.trace ++ (if s.mustWake s.ledBright then wakeEvents else []) ++
          cutAt [.bus .update 0x04#8 (groupMask (ledMembers led)) (groupData 1#2 (ledMembers led)) .ok] k ∧
        u.reg 1 = s.reg 1 ∧ u.reg 2 = s.reg 2 ∧
        u.reg 4 = (if s.wrote w k 0 then
          (s.reg 4).update (groupMask (ledMembers led)) (groupData 1#2 (ledMembers led)) else s.reg 4)) ∧
      (∀ a, a ≠ 0 → a ≠ 1 → a ≠ 2 → a ≠ 4 → u.reg a = s.reg a) ∧
      u.reg 0 = (if s.mustWake s.ledBright then RegVal.full 0x00#8 else s.reg 0) ∧
      u.chipMode = (if s.mustWake s.ledBright then .awake else s.chipMode) ∧
      u.ledBright = s.ledBright ∧ u.chBright = s.chBright ∧ u.enabled = (s.enabled || s.mustWake s.ledBright) ∧
      u.psrcOn = true ∧ u.lifecycle = s.lifecycle ∧ u.config = s.config ∧ u.pending = s.pending

/-- R87: SET_BLINK with both times 0 does what SET_BLINK 500, 500 does; only the response's times can differ, and they agree when
the status is OK. -/
def Obligations.BlinkDefaultIs500By500 : Prop :=
  ∀ (s : State) (t : BitVec 4), ∃ (u u' : State) (r r' : Response),
    exec (.setBlink t 0#64 0#64) s = .next u ∧ exec (.setBlink t 500#64 500#64) s = .next u' ∧
    s.Answers u r ∧ s.Answers u' r' ∧
    { u with responses := s.responses } = { u' with responses := s.responses } ∧
    r.status = r'.status ∧ (r.status = .ok → r = r')

/-- The default blink in numbers (E1): the period byte 7, the duty byte 128 and the achieved times 576 and 576. -/
def Obligations.BlinkDefaultTiming : Prop :=
  ∀ s : State, blinkTiming 500#64 500#64 s = ⟨7#8, 128#8, 576#64, 576#64⟩

/-- SET_BLINK on the always-on path with every answer OK (R89): one combined control update within the power events; no timing
register, no current register and no brightness is written; the times are returned as given. -/
def Obligations.BlinkAlwaysOnAllOk : Prop :=
  ∀ (s : State) (t : BitVec 4) (on : Millis) (led : Led),
    s.lifecycle = .attached → targetLed s t = some led → on ≠ 0#64 → s.okFor 5 →
    ∃ u, exec (.setBlink t on 0#64) s = .next u ∧
      u.trace = s.trace ++ (if s.mustWake s.ledBright then wakeEvents else []) ++
        ([.bus .update 0x04#8 (groupMask (ledMembers led)) (groupData 1#2 (ledMembers led)) .ok] : List Event) ++
        (if s.mustSleep s.ledBright then sleepEvents else []) ∧
      s.Answers u ⟨.ok, on, 0#64⟩ ∧
      u.ledBright = s.ledBright ∧ u.chBright = s.chBright ∧ u.enabled = u.active ∧
      u.psrcOn = (!s.mustSleep s.ledBright && (s.psrcOn || s.mustWake s.ledBright)) ∧
      u.lifecycle = s.lifecycle ∧ u.config = s.config ∧ u.pending = s.pending

/-- The registers after an always-on SET_BLINK with every answer OK whose body runs on a powered chip, whether or not an LED is
active (R41, R89): the members' fields are always-on; every other field and register is as before but RESET_CTRL, which the last
wake or sleep set.  A power-down that does not retain the registers takes all values.  The model's record of the chip's power
state (log 11) follows. -/
def Obligations.BlinkAlwaysOnRegisters : Prop :=
  ∀ (s : State) (t : BitVec 4) (on : Millis) (led : Led),
    s.lifecycle = .attached → cfgValid s.config = true → s.image.wf = true →
    targetLed s t = some led → on ≠ 0#64 → s.poweredFor s.ledBright → s.okFor 5 →
    ∃ u, exec (.setBlink t on 0#64) s = .next u ∧
      (s.keepsImage s.ledBright →
        (∀ c ∈ ledMembers led, u.channelMode c = some 1#2) ∧
        (∀ d, d < 4 → d ∉ ledMembers led → u.ctrlField d = s.ctrlField d) ∧
        (∀ a, a ≠ 0 → a ≠ 4 → u.reg a = s.reg a) ∧
        u.reg 0 = s.resetCtrlAfter s.ledBright) ∧
      (¬s.keepsImage s.ledBright → ∀ a, u.reg a = RegVal.noValue) ∧
      u.chipMode = s.chipModeAfter s.ledBright

/-- R90: SET_BLINK with on-time 0 and off-time not 0 does what SET_BRIGHTNESS to 0 does, in every state where both are legal: the
same events and state, the same status; only the response's times differ, which are the request's. -/
def Obligations.BlinkNeverOnIsBrightnessZero : Prop :=
  ∀ (s : State) (t : BitVec 4) (off on' off' : Millis), off ≠ 0#64 → s.lifecycle = .attached →
    t.toNat < s.config.ledCount →
    ∃ (u u' : State) (r r' : Response),
      exec (.setBlink t 0#64 off) s = .next u ∧ exec (.setBrightness t 0#8 on' off') s = .next u' ∧
      s.Answers u r ∧ s.Answers u' r' ∧
      { u with responses := s.responses } = { u' with responses := s.responses } ∧
      r.status = r'.status ∧ r.onOut = 0#64 ∧ r.offOut = off

/-- R92: SET_BLINK always answers, and the times returned are the achieved ones exactly on the general path (the default pattern's
included) with status OK; in every other row of the table they are the request's. -/
def Obligations.BlinkResponseTimes : Prop :=
  ∀ (s : State) (t : BitVec 4) (on off : Millis), ∃ (u : State) (r : Response),
    exec (.setBlink t on off) s = .next u ∧ s.Answers u r ∧
    (r.status = .ok → on ≠ 0#64 → off ≠ 0#64 →
      r.onOut = (blinkTiming on off s).onOut ∧ r.offOut = (blinkTiming on off s).offOut) ∧
    (r.status = .ok → on = 0#64 → off = 0#64 → r.onOut = 576#64 ∧ r.offOut = 576#64) ∧
    (r.status ≠ .ok → r.onOut = on ∧ r.offOut = off) ∧
    (on ≠ 0#64 → off = 0#64 → r.onOut = on ∧ r.offOut = off) ∧
    (on = 0#64 → off ≠ 0#64 → r.onOut = on ∧ r.offOut = off)

/-! ### Lifecycle -/

/-- R94: a valid configuration has at most as many logical LEDs as channels, hence at most four. -/
def Obligations.ValidConfigBoundsLedCount : Prop :=
  ∀ p : Params, cfgValid p = true → p.ledCount ≤ p.channelCount ∧ p.channelCount ≤ 4

/-- ATTACH with a valid configuration and its reset write answered OK (R95, R116): the trace, the block's state after it, and, when
the write took effect, every register at its default. -/
def Obligations.AttachCompletes : Prop :=
  ∀ (s : State) (on off : Millis), s.lifecycle = .uninit ∨ s.lifecycle = .removed →
    cfgValid s.config = true → (s.drawAt 0).result = .ok →
    ∃ u, exec (.attach on off) s = .next u ∧
      s.Emits u [.bus .write 0x00#8 0xFF#8 0x07#8 .ok, .wait s.config.settleUs] ∧
      200 ≤ s.config.settleUs ∧ s.config.settleUs ≤ 300 ∧
      s.Answers u ⟨.ok, 0#64, 0#64⟩ ∧ u.lifecycle = .attached ∧ u.enabled = false ∧
      u.ledBright = List.replicate s.config.ledCount 0#8 ∧
      u.chBright = List.replicate s.config.channelCount 0#8 ∧ u.active = false ∧
      u.psrcOn = s.psrcOn ∧ u.config = s.config ∧ u.pending = s.pending ∧
      (s.effective → ∀ a, a < regCount s.config → u.reg a = RegVal.full (regDefaultAt s.config a)) ∧
      (¬s.effective → u.image = s.image)

/-- ATTACH that fails (R95, R114): a reset write answered ERR gives BUS_ERROR without the wait; an invalid configuration gives
CONFIG_ERROR after it; in both the block's state is as before the request, and the image is reset when the write took effect. -/
def Obligations.AttachFailureKeepsBlockState : Prop :=
  ∀ (s : State) (on off : Millis), s.lifecycle = .uninit ∨ s.lifecycle = .removed →
    (s.drawAt 0).result = .err ∨ cfgValid s.config = false →
    ∃ u, exec (.attach on off) s = .next u ∧
      ((s.drawAt 0).result = .err →
        s.Emits u [.bus .write 0x00#8 0xFF#8 0x07#8 .err] ∧
        s.Answers u ⟨.busError, 0#64, 0#64⟩) ∧
      ((s.drawAt 0).result = .ok →
        s.Emits u [.bus .write 0x00#8 0xFF#8 0x07#8 .ok, .wait s.config.settleUs] ∧
        s.Answers u ⟨.configError, 0#64, 0#64⟩) ∧
      u.lifecycle = s.lifecycle ∧ u.enabled = s.enabled ∧ u.psrcOn = s.psrcOn ∧ u.ledBright = s.ledBright ∧
      u.chBright = s.chBright ∧ u.config = s.config ∧ u.pending = s.pending ∧
      (s.effective → ∀ a, a < regCount s.config → u.reg a = RegVal.full (regDefaultAt s.config a)) ∧
      (¬s.effective → u.image = s.image)

/-- R96: DETACH where it is legal, whatever is answered: the reset write, the disable only if enabled, status OK, REMOVED, disabled;
the brightnesses keep their values; the image is reset when the write took effect, and lost by a power-off that does not retain
it.  Elsewhere it is answered ILLEGAL_REQUEST. -/
def Obligations.DetachCompletes : Prop :=
  (∀ (s : State) (on off : Millis), s.lifecycle = .attached ∨ s.lifecycle = .shutdown →
    ∃ u, exec (.detach on off) s = .next u ∧
      u.trace = s.trace ++ ([.bus .write 0x00#8 0xFF#8 0x07#8 (s.drawAt 0).result] : List Event) ++
        (if s.enabled then [.pwr .disable (s.drawAt 1).result] else []) ∧
      s.Answers u ⟨.ok, 0#64, 0#64⟩ ∧ u.lifecycle = .removed ∧ u.enabled = false ∧
      u.psrcOn = (s.psrcOn && !(s.enabled && (s.drawAt 1).result == .ok)) ∧
      (s.enabled = true → (s.drawAt 1).result = .ok → s.config.retainOnPowerOff = false →
        ∀ a, u.reg a = RegVal.noValue) ∧
      (s.enabled = false ∨ (s.drawAt 1).result = .err ∨ s.config.retainOnPowerOff = true →
        (s.effective → ∀ a, a < regCount s.config → u.reg a = RegVal.full (regDefaultAt s.config a)) ∧
        (¬s.effective → u.image = s.image)) ∧
      u.ledBright = s.ledBright ∧ u.chBright = s.chBright ∧ u.config = s.config ∧ u.pending = s.pending) ∧
  ∀ (s : State) (on off : Millis), s.lifecycle = .uninit ∨ s.lifecycle = .removed →
    exec (.detach on off) s = .next (s.respond ⟨.illegalRequest, on, off⟩)

/-- R97: SHUTDOWN where it is legal, whatever is answered: the reset write alone, status OK, SHUTDOWN; `ENABLED`, the power source
and the brightnesses as they were; the image is reset when the write took effect.  Elsewhere it is answered ILLEGAL_REQUEST. -/
def Obligations.ShutdownCompletes : Prop :=
  (∀ (s : State) (on off : Millis), s.lifecycle = .attached →
    ∃ u, exec (.shutdown on off) s = .next u ∧
      s.Emits u [.bus .write 0x00#8 0xFF#8 0x07#8 (s.drawAt 0).result] ∧
      s.Answers u ⟨.ok, 0#64, 0#64⟩ ∧ u.lifecycle = .shutdown ∧ u.enabled = s.enabled ∧
      u.psrcOn = s.psrcOn ∧
      (s.effective → ∀ a, a < regCount s.config → u.reg a = RegVal.full (regDefaultAt s.config a)) ∧
      (¬s.effective → u.image = s.image) ∧
      u.ledBright = s.ledBright ∧ u.chBright = s.chBright ∧ u.config = s.config ∧ u.pending = s.pending) ∧
  ∀ (s : State) (on off : Millis), s.lifecycle ≠ .attached →
    exec (.shutdown on off) s = .next (s.respond ⟨.illegalRequest, on, off⟩)

/-- R125: SHUTDOWN whose reset takes effect leaves the chip at its defaults while LED_BRIGHT and ENABLED keep their values; in
SHUTDOWN every request but DETACH is answered ILLEGAL_REQUEST and changes nothing, and DETACH is accepted. -/
def Obligations.AfterShutdownOnlyDetach : Prop :=
  (∀ (s u : State) (on off : Millis), s.lifecycle = .attached → s.effective → exec (.shutdown on off) s = .next u →
    (∀ a, a < regCount s.config → u.reg a = RegVal.full (regDefaultAt s.config a)) ∧ u.ledBright = s.ledBright ∧
    u.enabled = s.enabled ∧ u.lifecycle = .shutdown) ∧
  (∀ (i : Instr) (s : State), s.lifecycle = .shutdown → i.isRequest = true →
    ((∀ on off, i ≠ .detach on off) → exec i s = .next (s.respond ⟨.illegalRequest, i.onMs, i.offMs⟩)) ∧
    (∀ on off, i = .detach on off → ∃ u, exec i s = .next u ∧ s.Answers u ⟨.ok, 0#64, 0#64⟩))

/-! ### The chip as it is programmed (the views rest on log 11) -/

/-- The model's record of the chip's power state (R43, R111; DEDUCED, log 11): a RESET_CTRL command that takes effect sets it, no
other transaction does; a disable answered OK, and an enable answered OK from off, leave a chip that has taken no command; the
settle wait ends a reset, so that no chip is resetting after an ATTACH whose reset write was answered OK. -/
def Obligations.ChipPowerFollowsCommands : Prop :=
  (∀ s : State, ∃ u v w, exec .resetCmd s = .next u ∧ exec .sleepCmd s = .next v ∧ exec .wakeCmd s = .next w ∧
    u.chipMode = (if s.effective then .reset else s.chipMode) ∧
    v.chipMode = (if s.effective then .asleep else s.chipMode) ∧
    w.chipMode = (if s.effective then .awake else s.chipMode)) ∧
  (∀ (s u : State) (i : Instr) (a v : Byte), (i.writeForm? = some (a, v) ∧ a ≠ 0x00#8) ∨ i = .updCtrl a v →
    exec i s = .next u → u.chipMode = s.chipMode) ∧
  (∀ s : State, (powerDisable s).2.chipMode = if (s.drawAt 0).result = .ok then .unset else s.chipMode) ∧
  (∀ s : State, (powerEnable s).2.chipMode =
    if (s.drawAt 0).result = .ok ∧ s.psrcOn = false then .unset else s.chipMode) ∧
  (∀ s : State, (settleWait s).chipMode = if s.chipMode = .reset then .settled else s.chipMode) ∧
  (∀ (s : State) (on off : Millis), s.lifecycle = .uninit ∨ s.lifecycle = .removed → (s.drawAt 0).result = .ok →
    ∃ u, exec (.attach on off) s = .next u ∧ u.chipPower ≠ .resetting)

/-- R120: two channels that blink do so with one timing; a general-path SET_BLINK, every answer OK and some LED active, retimes a
channel that is no member and was in pattern 1, without writing its field or its level. -/
def Obligations.BlinkTimingIsShared : Prop :=
  (∀ (s : State) (c d : Nat) (p q : Option Nat) (onC onD codeC codeD : Option Byte),
    s.channelOutput c = .blink p onC codeC → s.channelOutput d = .blink q onD codeD → p = q ∧ onC = onD) ∧
  (∀ (s : State) (t : BitVec 4) (on off : Millis) (led : Led) (d : Nat),
    s.lifecycle = .attached → cfgValid s.config = true → s.image.wf = true → s.enabled = true → s.psrcOn = true →
    s.chipMode = .awake → targetLed s t = some led → on ≠ 0#64 → off ≠ 0#64 → s.active = true → s.okFor 3 →
    d < s.config.channelCount → d ∉ ledMembers led → s.channelMode d = some 2#2 →
    ∃ u, exec (.setBlink t on off) s = .next u ∧ u.ctrlField d = s.ctrlField d ∧
      u.channelOutput d = .blink (some (periodMs (blinkTiming on off s).steps.toNat))
        (some (blinkTiming on off s).code) (s.reg (6 + d)).value?)

/-- R121: the always-on path sets field `01` on a member whatever its brightness; the member is driven at its current register, so
one with brightness 0, hence ILED code 0, the code of brightness 1 too, is driven at that code while its LED_BRIGHT says 0. -/
def Obligations.AlwaysOnLightsBrightnessZero : Prop :=
  iledCode 0#8 = iledCode 1#8 ∧
  ∀ (s : State) (t : BitVec 4) (on : Millis) (led : Led) (c : Nat),
    s.lifecycle = .attached → cfgValid s.config = true → s.image.wf = true → s.enabled = true → s.psrcOn = true →
    s.chipMode = .awake → targetLed s t = some led → on ≠ 0#64 → s.active = true → s.okFor 1 → c ∈ ledMembers led →
    ∃ u, exec (.setBlink t on 0#64) s = .next u ∧ u.channelMode c = some 1#2 ∧ u.ledBright = s.ledBright ∧
      u.channelOutput c = .steady (s.reg (6 + c)).value? ∧
      (s.reg (6 + c) = RegVal.full (iledCode 0#8) → u.channelOutput c = .steady (some (iledCode 0#8)))

/-- R122: after a SET_BRIGHTNESS with every answer OK whose body runs on a powered chip, no member channel blinks: its field is
`00` or `01`, unless a power-down took it, after which its output is off. -/
def Obligations.BrightnessStopsBlink : Prop :=
  ∀ (s : State) (t : BitVec 4) (v : Byte) (on off : Millis) (led : Led) (c : Nat),
    s.lifecycle = .attached → cfgValid s.config = true → s.image.wf = true →
    targetLed s t = some led → s.poweredFor (s.ledBright.set t.toNat v) → s.okFor (2 * (ledOutputs v led).length + 4) →
    c ∈ ledMembers led →
    ∃ u, exec (.setBrightness t v on off) s = .next u ∧
      (s.keepsImage (s.ledBright.set t.toNat v) → u.channelMode c = some 0#2 ∨ u.channelMode c = some 1#2) ∧
      (s.mustSleep (s.ledBright.set t.toNat v) = true → u.channelOutput c = .off) ∧
      ∀ (p : Option Nat) (duty code : Option Byte), u.channelOutput c ≠ .blink p duty code

/-- R123: while the chip is asleep with `ENABLED = 1`, a SET_BRIGHTNESS or SET_BLINK that leaves some LED active does not wake it:
whatever is answered, the output of every channel of the chip stays off.  Such a state follows a sleep write answered OK and a failed
disable. -/
def Obligations.EnabledButAsleepStaysDark : Prop :=
  (∀ (s u : State) (i : Instr), i.target? ≠ none → cfgValid s.config = true → s.enabled = true →
    s.chipMode = .asleep → exec i s = .next u → u.active = true →
    u.enabled = true ∧ u.chipMode = .asleep ∧ ∀ c, c < s.config.channelCount → u.channelOutput c = .off) ∧
  (∀ s : State, s.enabled = true → s.psrcOn = true → (s.drawAt 0).result = .ok → (s.drawAt 1).result = .err →
    (ensureDisabled s).enabled = true ∧ (ensureDisabled s).chipPower = .asleep)

/-- R118: while no LED is active, the chip is disabled and the power source is off, a SET_BRIGHTNESS to 0 (the never-on path does the
same, R90), a general-path and an always-on SET_BLINK make no power call and emit their writes anyway; every answer OK, they
end OK, and each single write lands exactly when its own effect is drawn as applied; every other register is as before. -/
def Obligations.WritesToDisabledChipAreDrawn : Prop :=
  ∀ (s : State) (t : BitVec 4) (on off : Millis) (led : Led),
    s.lifecycle = .attached → cfgValid s.config = true → s.enabled = false → s.psrcOn = false → s.active = false →
    s.image.wf = true → targetLed s t = some led →
    (s.okFor (2 * (ledMembers led).length) →
      ∃ u, exec (.setBrightness t 0#8 on off) s = .next u ∧
        u.trace = s.trace ++ (ledMembers led).flatMap (fun c => channelEvents c 0#8) ∧ s.Answers u ⟨.ok, 0#64, 0#64⟩ ∧
        (∀ j c, (ledMembers led)[j]? = some c →
          u.reg (6 + c) = (if (s.drawAt (2 * j)).applied then RegVal.full 0#8 else s.reg (6 + c)) ∧
          ((s.drawAt (2 * j + 1)).applied = true → u.channelMode c = some 0#2) ∧
          ((s.drawAt (2 * j + 1)).applied = false → u.ctrlField c = s.ctrlField c)) ∧
        (∀ d, d < 4 → d ∉ ledMembers led → u.ctrlField d = s.ctrlField d) ∧
        (∀ a, a ≠ 4 → (∀ c ∈ ledMembers led, a ≠ 6 + c) → u.reg a = s.reg a) ∧ u.enabled = false ∧ u.psrcOn = false) ∧
    (on ≠ 0#64 → off ≠ 0#64 → s.okFor 3 →
      ∃ u, exec (.setBlink t on off) s = .next u ∧
        s.Emits u [.bus .write 0x01#8 0xFF#8 (blinkTiming on off s).steps .ok,
          .bus .write 0x02#8 0xFF#8 (blinkTiming on off s).code .ok,
          .bus .update 0x04#8 (groupMask (ledMembers led)) (groupData 2#2 (ledMembers led)) .ok] ∧
        s.Answers u ⟨.ok, (blinkTiming on off s).onOut, (blinkTiming on off s).offOut⟩ ∧
        u.reg 1 = (if (s.drawAt 0).applied then RegVal.full (blinkTiming on off s).steps else s.reg 1) ∧
        u.reg 2 = (if (s.drawAt 1).applied then RegVal.full (blinkTiming on off s).code else s.reg 2) ∧
        u.reg 4 = (if (s.drawAt 2).applied then
          (s.reg 4).update (groupMask (ledMembers led)) (groupData 2#2 (ledMembers led)) else s.reg 4) ∧
        (∀ a, a ≠ 1 → a ≠ 2 → a ≠ 4 → u.reg a = s.reg a) ∧ u.enabled = false ∧ u.psrcOn = false) ∧
    (on ≠ 0#64 → s.okFor 1 →
      ∃ u, exec (.setBlink t on 0#64) s = .next u ∧
        s.Emits u [.bus .update 0x04#8 (groupMask (ledMembers led)) (groupData 1#2 (ledMembers led)) .ok] ∧
        s.Answers u ⟨.ok, on, 0#64⟩ ∧
        u.reg 4 = (if (s.drawAt 0).applied then
          (s.reg 4).update (groupMask (ledMembers led)) (groupData 1#2 (ledMembers led)) else s.reg 4) ∧
        (∀ a, a ≠ 4 → u.reg a = s.reg a) ∧ u.enabled = false ∧ u.psrcOn = false)

/-- R108, R109: the output of a channel of a powered, awake chip by its control field: off; driven at its current register; blinking
with the period of REG[1], the duty of REG[2] and the level of its current register, each of them a draw of its own where
the register holds no value or the rule leaves it open; off while the chip is unpowered, asleep or resetting.  Which commands make
the chip awake is the model's record (log 11). -/
def Obligations.OutputFollowsControlField : Prop :=
  ∀ (s : State) (c : Nat), c < s.config.channelCount →
    (s.psrcOn = true → s.chipMode = .awake →
      (s.channelMode c = some 0#2 → s.channelOutput c = .off) ∧
      (s.channelMode c = some 1#2 → ∃ level, s.channelOutput c = .steady level ∧
        ∀ code, s.reg (6 + c) = RegVal.full code → level = some code) ∧
      (s.channelMode c = some 2#2 → ∃ period duty level, s.channelOutput c = .blink period duty level ∧
        (∀ n : Byte, s.reg 1 = RegVal.full n → 1 ≤ n.toNat → n.toNat ≤ 126 → period = some (n.toNat * 128 + 256)) ∧
        (∀ n, s.reg 2 = RegVal.full n → duty = some n) ∧
        (∀ code, s.reg (6 + c) = RegVal.full code → level = some code))) ∧
    (s.chipPower = .unpowered ∨ s.chipPower = .asleep ∨ s.chipPower = .resetting → s.channelOutput c = .off) ∧
    (s.psrcOn = false → s.chipPower = .unpowered) ∧ (s.psrcOn = true → s.chipMode = .asleep → s.chipPower = .asleep)

/-! ### The whole machine -/

/-- The state right after reset meets both invariants; no register holds a value, and nothing was emitted (R32, R113); no word
waits (the model's queue, log 6).  The brightnesses of reset are the model's choice (log 4) and are not claimed here. -/
def Obligations.ResetMeetsInvariants : Prop :=
  State.reset.Inv ∧ State.reset.RegsInv ∧ State.reset.lifecycle = .uninit ∧ State.reset.enabled = false ∧
  (∀ a, State.reset.reg a = RegVal.noValue) ∧ State.reset.trace = [] ∧ State.reset.pending = []

/-- Every step keeps the machine's invariant: the image stays canonical and holds only the chip's registers; `ENABLED` is 1 only
in ATTACHED and SHUTDOWN and with the power source on, and in ATTACHED only on a chip whose last command is wake or sleep (the
model's record of the chip: log 11; R123); the block emits only the transactions of R59.  It speaks of machines to which only
the host presents words (logs 6, 7). -/
def Obligations.StepKeepsInvariant : Prop :=
  ∀ s u : State, s.Inv → step s = .next u → u.Inv

/-- Every step keeps what the registers can hold (R24 to R30). -/
def Obligations.StepKeepsRegisterRanges : Prop :=
  ∀ s u : State, s.Inv → s.RegsInv → step s = .next u → u.RegsInv

/-- Every request ends with a next state and one response; it only appends to the trace, leaves the configuration and the waiting
words alone, and takes one answer for each bus and power event, which carry those answers' results (R8, R46, R48, R102). -/
def Obligations.RequestAppendsEventsAndOneResponse : Prop :=
  ∀ (i : Instr) (s : State), i.isRequest = true →
    ∃ (u : State) (es : List Event) (r : Response), exec i s = .next u ∧
      u.trace = s.trace ++ es ∧ s.Answers u r ∧ u.config = s.config ∧ u.pending = s.pending ∧
      u.drawn = s.drawn + (es.filter Event.drawn).length ∧
      (∀ k, u.drawAt k = s.drawAt (k + (es.filter Event.drawn).length)) ∧
      ∀ k, (es.filter Event.drawn)[k]?.map Event.result? =
        if k < (es.filter Event.drawn).length then some (some (s.drawAt k).result) else none

/-- What the block does does not depend on the record of the power source or on the chip: from two states that agree on the rest,
every request leaves states that agree on the rest, with the same events and response (R17, R40). -/
def Obligations.BlockNeverReadsTheChip : Prop :=
  ∀ (i : Instr) (s s' : State), i.isRequest = true → s.forgetChip = s'.forgetChip →
    ∃ u u', exec i s = .next u ∧ exec i s' = .next u' ∧ u.forgetChip = u'.forgetChip

/-- A SET_BRIGHTNESS or SET_BLINK leaves alone, whatever is answered, every channel that is no member of its target: its control field
and its current register, as long as the power source is not switched off; and always PWM2_TIMER and RISE_FALL then
(R27, R29, R34, R75, R78). -/
def Obligations.OtherChannelsUntouched : Prop :=
  ∀ (i : Instr) (s u : State) (t : BitVec 4) (led : Led),
    i.target? = some t → targetLed s t = some led → s.lifecycle = .attached → cfgValid s.config = true →
    s.image.wf = true → exec i s = .next u → (∀ e ∈ s.newEvents u, e.powerOff = false) →
    (∀ d, d < s.config.channelCount → d ∉ ledMembers led →
      u.ctrlField d = s.ctrlField d ∧ u.reg (6 + d) = s.reg (6 + d)) ∧
    u.reg 3 = s.reg 3 ∧ u.reg 5 = s.reg 5

/-- R18: only SET_BRIGHTNESS, SET_BLINK's never-on path and ATTACH write LED_BRIGHT, and the first two only the target's entry; a
channel's CH_BRIGHT is written only by them, and by the first two only for the target's members. -/
def Obligations.BrightnessWrittenOnlyByItsRequests : Prop :=
  ∀ (i : Instr) (s u : State), exec i s = .next u → (∀ on off, i ≠ .attach on off) →
    (∀ l, (∀ t, i.target? = some t → l ≠ t.toNat) → u.ledBright[l]? = s.ledBright[l]?) ∧
    (∀ c, (∀ t led, i.target? = some t → targetLed s t = some led → c ∉ ledMembers led) →
      u.chBright[c]? = s.chBright[c]?) ∧
    (∀ t on off, i = .setBlink t on off → on ≠ 0#64 ∨ off = 0#64 →
      u.ledBright = s.ledBright ∧ u.chBright = s.chBright)

/-- R116: the settle wait occurs only in ATTACH, right after its reset write, and lasts 200 to 300 microseconds. -/
def Obligations.SettleWaitOnlyInAttach : Prop :=
  ∀ (i : Instr) (s u : State) (us : Nat), exec i s = .next u → .wait us ∈ s.newEvents u →
    (∃ on off, i = .attach on off) ∧ us = s.config.settleUs ∧ 200 ≤ us ∧ us ≤ 300 ∧
    s.newEvents u = [.bus .write 0x00#8 0xFF#8 0x07#8 .ok, .wait us]
end

