-- ==== Sys2Proof/Laws/State.lean ====
section
/-! SUPPORT. One lemma per field per update of the state, each true by unfolding the update. -/

namespace Sys2Proof.Machine

open Sys2Proof

variable (s : State)

@[simp] theorem State.setLifecycle_lifecycle (l : Lifecycle) : (s.setLifecycle l).lifecycle = l := rfl
@[simp] theorem State.setLifecycle_enabled (l : Lifecycle) : (s.setLifecycle l).enabled = s.enabled := rfl
@[simp] theorem State.setLifecycle_psrcOn (l : Lifecycle) : (s.setLifecycle l).psrcOn = s.psrcOn := rfl
@[simp] theorem State.setLifecycle_ledBright (l : Lifecycle) : (s.setLifecycle l).ledBright = s.ledBright := rfl
@[simp] theorem State.setLifecycle_chBright (l : Lifecycle) : (s.setLifecycle l).chBright = s.chBright := rfl
@[simp] theorem State.setLifecycle_image (l : Lifecycle) : (s.setLifecycle l).image = s.image := rfl
@[simp] theorem State.setLifecycle_chipMode (l : Lifecycle) : (s.setLifecycle l).chipMode = s.chipMode := rfl
@[simp] theorem State.setLifecycle_config (l : Lifecycle) : (s.setLifecycle l).config = s.config := rfl
@[simp] theorem State.setLifecycle_trace (l : Lifecycle) : (s.setLifecycle l).trace = s.trace := rfl
@[simp] theorem State.setLifecycle_responses (l : Lifecycle) : (s.setLifecycle l).responses = s.responses := rfl
@[simp] theorem State.setLifecycle_pending (l : Lifecycle) : (s.setLifecycle l).pending = s.pending := rfl
@[simp] theorem State.setLifecycle_draws (l : Lifecycle) : (s.setLifecycle l).draws = s.draws := rfl
@[simp] theorem State.setLifecycle_drawn (l : Lifecycle) : (s.setLifecycle l).drawn = s.drawn := rfl

@[simp] theorem State.setEnabled_lifecycle (b : Bool) : (s.setEnabled b).lifecycle = s.lifecycle := rfl
@[simp] theorem State.setEnabled_enabled (b : Bool) : (s.setEnabled b).enabled = b := rfl
@[simp] theorem State.setEnabled_psrcOn (b : Bool) : (s.setEnabled b).psrcOn = s.psrcOn := rfl
@[simp] theorem State.setEnabled_ledBright (b : Bool) : (s.setEnabled b).ledBright = s.ledBright := rfl
@[simp] theorem State.setEnabled_chBright (b : Bool) : (s.setEnabled b).chBright = s.chBright := rfl
@[simp] theorem State.setEnabled_image (b : Bool) : (s.setEnabled b).image = s.image := rfl
@[simp] theorem State.setEnabled_chipMode (b : Bool) : (s.setEnabled b).chipMode = s.chipMode := rfl
@[simp] theorem State.setEnabled_config (b : Bool) : (s.setEnabled b).config = s.config := rfl
@[simp] theorem State.setEnabled_trace (b : Bool) : (s.setEnabled b).trace = s.trace := rfl
@[simp] theorem State.setEnabled_responses (b : Bool) : (s.setEnabled b).responses = s.responses := rfl
@[simp] theorem State.setEnabled_pending (b : Bool) : (s.setEnabled b).pending = s.pending := rfl
@[simp] theorem State.setEnabled_draws (b : Bool) : (s.setEnabled b).draws = s.draws := rfl
@[simp] theorem State.setEnabled_drawn (b : Bool) : (s.setEnabled b).drawn = s.drawn := rfl

@[simp] theorem State.setPsrcOn_lifecycle (b : Bool) : (s.setPsrcOn b).lifecycle = s.lifecycle := rfl
@[simp] theorem State.setPsrcOn_enabled (b : Bool) : (s.setPsrcOn b).enabled = s.enabled := rfl
@[simp] theorem State.setPsrcOn_psrcOn (b : Bool) : (s.setPsrcOn b).psrcOn = b := rfl
@[simp] theorem State.setPsrcOn_ledBright (b : Bool) : (s.setPsrcOn b).ledBright = s.ledBright := rfl
@[simp] theorem State.setPsrcOn_chBright (b : Bool) : (s.setPsrcOn b).chBright = s.chBright := rfl
@[simp] theorem State.setPsrcOn_image (b : Bool) : (s.setPsrcOn b).image = s.image := rfl
@[simp] theorem State.setPsrcOn_chipMode (b : Bool) : (s.setPsrcOn b).chipMode = s.chipMode := rfl
@[simp] theorem State.setPsrcOn_config (b : Bool) : (s.setPsrcOn b).config = s.config := rfl
@[simp] theorem State.setPsrcOn_trace (b : Bool) : (s.setPsrcOn b).trace = s.trace := rfl
@[simp] theorem State.setPsrcOn_responses (b : Bool) : (s.setPsrcOn b).responses = s.responses := rfl
@[simp] theorem State.setPsrcOn_pending (b : Bool) : (s.setPsrcOn b).pending = s.pending := rfl
@[simp] theorem State.setPsrcOn_draws (b : Bool) : (s.setPsrcOn b).draws = s.draws := rfl
@[simp] theorem State.setPsrcOn_drawn (b : Bool) : (s.setPsrcOn b).drawn = s.drawn := rfl

@[simp] theorem State.setLedBright_lifecycle (b : List Byte) : (s.setLedBright b).lifecycle = s.lifecycle := rfl
@[simp] theorem State.setLedBright_enabled (b : List Byte) : (s.setLedBright b).enabled = s.enabled := rfl
@[simp] theorem State.setLedBright_psrcOn (b : List Byte) : (s.setLedBright b).psrcOn = s.psrcOn := rfl
@[simp] theorem State.setLedBright_ledBright (b : List Byte) : (s.setLedBright b).ledBright = b := rfl
@[simp] theorem State.setLedBright_chBright (b : List Byte) : (s.setLedBright b).chBright = s.chBright := rfl
@[simp] theorem State.setLedBright_image (b : List Byte) : (s.setLedBright b).image = s.image := rfl
@[simp] theorem State.setLedBright_chipMode (b : List Byte) : (s.setLedBright b).chipMode = s.chipMode := rfl
@[simp] theorem State.setLedBright_config (b : List Byte) : (s.setLedBright b).config = s.config := rfl
@[simp] theorem State.setLedBright_trace (b : List Byte) : (s.setLedBright b).trace = s.trace := rfl
@[simp] theorem State.setLedBright_responses (b : List Byte) : (s.setLedBright b).responses = s.responses := rfl
@[simp] theorem State.setLedBright_pending (b : List Byte) : (s.setLedBright b).pending = s.pending := rfl
@[simp] theorem State.setLedBright_draws (b : List Byte) : (s.setLedBright b).draws = s.draws := rfl
@[simp] theorem State.setLedBright_drawn (b : List Byte) : (s.setLedBright b).drawn = s.drawn := rfl

@[simp] theorem State.setChBright_lifecycle (b : List Byte) : (s.setChBright b).lifecycle = s.lifecycle := rfl
@[simp] theorem State.setChBright_enabled (b : List Byte) : (s.setChBright b).enabled = s.enabled := rfl
@[simp] theorem State.setChBright_psrcOn (b : List Byte) : (s.setChBright b).psrcOn = s.psrcOn := rfl
@[simp] theorem State.setChBright_ledBright (b : List Byte) : (s.setChBright b).ledBright = s.ledBright := rfl
@[simp] theorem State.setChBright_chBright (b : List Byte) : (s.setChBright b).chBright = b := rfl
@[simp] theorem State.setChBright_image (b : List Byte) : (s.setChBright b).image = s.image := rfl
@[simp] theorem State.setChBright_chipMode (b : List Byte) : (s.setChBright b).chipMode = s.chipMode := rfl
@[simp] theorem State.setChBright_config (b : List Byte) : (s.setChBright b).config = s.config := rfl
@[simp] theorem State.setChBright_trace (b : List Byte) : (s.setChBright b).trace = s.trace := rfl
@[simp] theorem State.setChBright_responses (b : List Byte) : (s.setChBright b).responses = s.responses := rfl
@[simp] theorem State.setChBright_pending (b : List Byte) : (s.setChBright b).pending = s.pending := rfl
@[simp] theorem State.setChBright_draws (b : List Byte) : (s.setChBright b).draws = s.draws := rfl
@[simp] theorem State.setChBright_drawn (b : List Byte) : (s.setChBright b).drawn = s.drawn := rfl

@[simp] theorem State.setImage_lifecycle (g : RegImage) : (s.setImage g).lifecycle = s.lifecycle := rfl
@[simp] theorem State.setImage_enabled (g : RegImage) : (s.setImage g).enabled = s.enabled := rfl
@[simp] theorem State.setImage_psrcOn (g : RegImage) : (s.setImage g).psrcOn = s.psrcOn := rfl
@[simp] theorem State.setImage_ledBright (g : RegImage) : (s.setImage g).ledBright = s.ledBright := rfl
@[simp] theorem State.setImage_chBright (g : RegImage) : (s.setImage g).chBright = s.chBright := rfl
@[simp] theorem State.setImage_image (g : RegImage) : (s.setImage g).image = g := rfl
@[simp] theorem State.setImage_chipMode (g : RegImage) : (s.setImage g).chipMode = s.chipMode := rfl
@[simp] theorem State.setImage_config (g : RegImage) : (s.setImage g).config = s.config := rfl
@[simp] theorem State.setImage_trace (g : RegImage) : (s.setImage g).trace = s.trace := rfl
@[simp] theorem State.setImage_responses (g : RegImage) : (s.setImage g).responses = s.responses := rfl
@[simp] theorem State.setImage_pending (g : RegImage) : (s.setImage g).pending = s.pending := rfl
@[simp] theorem State.setImage_draws (g : RegImage) : (s.setImage g).draws = s.draws := rfl
@[simp] theorem State.setImage_drawn (g : RegImage) : (s.setImage g).drawn = s.drawn := rfl

@[simp] theorem State.setChipMode_lifecycle (m : ChipMode) : (s.setChipMode m).lifecycle = s.lifecycle := rfl
@[simp] theorem State.setChipMode_enabled (m : ChipMode) : (s.setChipMode m).enabled = s.enabled := rfl
@[simp] theorem State.setChipMode_psrcOn (m : ChipMode) : (s.setChipMode m).psrcOn = s.psrcOn := rfl
@[simp] theorem State.setChipMode_ledBright (m : ChipMode) : (s.setChipMode m).ledBright = s.ledBright := rfl
@[simp] theorem State.setChipMode_chBright (m : ChipMode) : (s.setChipMode m).chBright = s.chBright := rfl
@[simp] theorem State.setChipMode_image (m : ChipMode) : (s.setChipMode m).image = s.image := rfl
@[simp] theorem State.setChipMode_chipMode (m : ChipMode) : (s.setChipMode m).chipMode = m := rfl
@[simp] theorem State.setChipMode_config (m : ChipMode) : (s.setChipMode m).config = s.config := rfl
@[simp] theorem State.setChipMode_trace (m : ChipMode) : (s.setChipMode m).trace = s.trace := rfl
@[simp] theorem State.setChipMode_responses (m : ChipMode) : (s.setChipMode m).responses = s.responses := rfl
@[simp] theorem State.setChipMode_pending (m : ChipMode) : (s.setChipMode m).pending = s.pending := rfl
@[simp] theorem State.setChipMode_draws (m : ChipMode) : (s.setChipMode m).draws = s.draws := rfl
@[simp] theorem State.setChipMode_drawn (m : ChipMode) : (s.setChipMode m).drawn = s.drawn := rfl

@[simp] theorem State.setPending_lifecycle (p : List PortWord) : (s.setPending p).lifecycle = s.lifecycle := rfl
@[simp] theorem State.setPending_enabled (p : List PortWord) : (s.setPending p).enabled = s.enabled := rfl
@[simp] theorem State.setPending_psrcOn (p : List PortWord) : (s.setPending p).psrcOn = s.psrcOn := rfl
@[simp] theorem State.setPending_ledBright (p : List PortWord) : (s.setPending p).ledBright = s.ledBright := rfl
@[simp] theorem State.setPending_chBright (p : List PortWord) : (s.setPending p).chBright = s.chBright := rfl
@[simp] theorem State.setPending_image (p : List PortWord) : (s.setPending p).image = s.image := rfl
@[simp] theorem State.setPending_chipMode (p : List PortWord) : (s.setPending p).chipMode = s.chipMode := rfl
@[simp] theorem State.setPending_config (p : List PortWord) : (s.setPending p).config = s.config := rfl
@[simp] theorem State.setPending_trace (p : List PortWord) : (s.setPending p).trace = s.trace := rfl
@[simp] theorem State.setPending_responses (p : List PortWord) : (s.setPending p).responses = s.responses := rfl
@[simp] theorem State.setPending_pending (p : List PortWord) : (s.setPending p).pending = p := rfl
@[simp] theorem State.setPending_draws (p : List PortWord) : (s.setPending p).draws = s.draws := rfl
@[simp] theorem State.setPending_drawn (p : List PortWord) : (s.setPending p).drawn = s.drawn := rfl

@[simp] theorem State.emit_lifecycle (e : Event) : (s.emit e).lifecycle = s.lifecycle := rfl
@[simp] theorem State.emit_enabled (e : Event) : (s.emit e).enabled = s.enabled := rfl
@[simp] theorem State.emit_psrcOn (e : Event) : (s.emit e).psrcOn = s.psrcOn := rfl
@[simp] theorem State.emit_ledBright (e : Event) : (s.emit e).ledBright = s.ledBright := rfl
@[simp] theorem State.emit_chBright (e : Event) : (s.emit e).chBright = s.chBright := rfl
@[simp] theorem State.emit_image (e : Event) : (s.emit e).image = s.image := rfl
@[simp] theorem State.emit_chipMode (e : Event) : (s.emit e).chipMode = s.chipMode := rfl
@[simp] theorem State.emit_config (e : Event) : (s.emit e).config = s.config := rfl
@[simp] theorem State.emit_trace (e : Event) : (s.emit e).trace = s.trace ++ [e] := rfl
@[simp] theorem State.emit_responses (e : Event) : (s.emit e).responses = s.responses := rfl
@[simp] theorem State.emit_pending (e : Event) : (s.emit e).pending = s.pending := rfl
@[simp] theorem State.emit_draws (e : Event) : (s.emit e).draws = s.draws := rfl
@[simp] theorem State.emit_drawn (e : Event) : (s.emit e).drawn = s.drawn := rfl

@[simp] theorem State.respond_lifecycle (r : Response) : (s.respond r).lifecycle = s.lifecycle := rfl
@[simp] theorem State.respond_enabled (r : Response) : (s.respond r).enabled = s.enabled := rfl
@[simp] theorem State.respond_psrcOn (r : Response) : (s.respond r).psrcOn = s.psrcOn := rfl
@[simp] theorem State.respond_ledBright (r : Response) : (s.respond r).ledBright = s.ledBright := rfl
@[simp] theorem State.respond_chBright (r : Response) : (s.respond r).chBright = s.chBright := rfl
@[simp] theorem State.respond_image (r : Response) : (s.respond r).image = s.image := rfl
@[simp] theorem State.respond_chipMode (r : Response) : (s.respond r).chipMode = s.chipMode := rfl
@[simp] theorem State.respond_config (r : Response) : (s.respond r).config = s.config := rfl
@[simp] theorem State.respond_trace (r : Response) : (s.respond r).trace = s.trace := rfl
@[simp] theorem State.respond_responses (r : Response) : (s.respond r).responses = s.responses ++ [r] := rfl
@[simp] theorem State.respond_pending (r : Response) : (s.respond r).pending = s.pending := rfl
@[simp] theorem State.respond_draws (r : Response) : (s.respond r).draws = s.draws := rfl
@[simp] theorem State.respond_drawn (r : Response) : (s.respond r).drawn = s.drawn := rfl

@[simp] theorem State.takeDraw_lifecycle : (s.takeDraw).lifecycle = s.lifecycle := rfl
@[simp] theorem State.takeDraw_enabled : (s.takeDraw).enabled = s.enabled := rfl
@[simp] theorem State.takeDraw_psrcOn : (s.takeDraw).psrcOn = s.psrcOn := rfl
@[simp] theorem State.takeDraw_ledBright : (s.takeDraw).ledBright = s.ledBright := rfl
@[simp] theorem State.takeDraw_chBright : (s.takeDraw).chBright = s.chBright := rfl
@[simp] theorem State.takeDraw_image : (s.takeDraw).image = s.image := rfl
@[simp] theorem State.takeDraw_chipMode : (s.takeDraw).chipMode = s.chipMode := rfl
@[simp] theorem State.takeDraw_config : (s.takeDraw).config = s.config := rfl
@[simp] theorem State.takeDraw_trace : (s.takeDraw).trace = s.trace := rfl
@[simp] theorem State.takeDraw_responses : (s.takeDraw).responses = s.responses := rfl
@[simp] theorem State.takeDraw_pending : (s.takeDraw).pending = s.pending := rfl
@[simp] theorem State.takeDraw_draws : (s.takeDraw).draws = s.draws.tail := rfl
@[simp] theorem State.takeDraw_drawn : (s.takeDraw).drawn = s.drawn + 1 := rfl

end Sys2Proof.Machine
end

