-- ==== Sys2Proof/Laws/Memory.lean ====
section
/-! SUPPORT. The laws of the register image: a read after a write, the canonical form, the chip's defaults. -/

namespace Sys2Proof.Machine

open Sys2Proof

/-! ### One plane -/

/-- Below its first listed address a canonical plane reads as unlisted. -/
theorem Memory.read_below {m : Memory} : ∀ {lo a : Nat}, Memory.wfFrom lo m = true → a < lo →
    Memory.read m a = Memory.unlisted := by
  induction m with
  | nil => intros; rfl
  | cons e rest ih =>
    obtain ⟨b, v⟩ := e
    intro lo a h ha
    simp only [Memory.wfFrom, Bool.and_eq_true, decide_eq_true_eq] at h
    have hb : b ≠ a := by omega
    simpa [Memory.read, hb] using ih h.2 (by omega)

theorem Memory.read_cons_same (a : Nat) (v : Byte) {rest : Memory}
    (h : Memory.read rest a = Memory.unlisted) : Memory.read (Memory.cons a v rest) a = v := by
  unfold Memory.cons
  split
  · simp_all
  · simp [Memory.read]

theorem Memory.read_cons_other {a b : Nat} (v : Byte) (rest : Memory) (h : b ≠ a) :
    Memory.read (Memory.cons b v rest) a = Memory.read rest a := by
  unfold Memory.cons
  split
  · rfl
  · simp [Memory.read, h]

/-- A read after a write: the written byte at the written address, every other address as before. -/
theorem Memory.read_write {m : Memory} : ∀ {lo : Nat} (_ : Memory.wfFrom lo m = true) (a b : Nat) (v : Byte),
    Memory.read (Memory.write m a v) b = if b = a then v else Memory.read m b := by
  induction m with
  | nil =>
    intro lo _ a b v
    by_cases hb : b = a
    · subst hb
      simpa [Memory.write] using Memory.read_cons_same b v (rest := []) rfl
    · simpa [Memory.write, hb] using Memory.read_cons_other v [] (Ne.symm hb)
  | cons e rest ih =>
    obtain ⟨c, u⟩ := e
    intro lo h a b v
    simp only [Memory.wfFrom, Bool.and_eq_true, decide_eq_true_eq] at h
    by_cases h1 : c < a
    · by_cases hcb : c = b
      · subst hcb
        have : c ≠ a := by omega
        simp [Memory.write, h1, Memory.read, this]
      · simp [Memory.write, h1, Memory.read, hcb, ih h.2]
    · by_cases h2 : c = a
      · subst h2
        by_cases hb : b = c
        · subst hb
          simp [Memory.write, Memory.read_cons_same, Memory.read_below h.2 (Nat.lt_succ_self _)]
        · have hc : c ≠ b := Ne.symm hb
          simp [Memory.write, hb, Memory.read_cons_other v rest hc, Memory.read, hc]
      · have hlow : Memory.wfFrom c ((c, u) :: rest) = true := by simp [Memory.wfFrom, h.1.2, h.2]
        by_cases hb : b = a
        · subst hb
          simp [Memory.write, h1, h2,
            Memory.read_cons_same b v (Memory.read_below hlow (by omega : b < c))]
        · simp [Memory.write, h1, h2, hb, Memory.read_cons_other v _ (Ne.symm hb)]

theorem Memory.wfFrom_mono {m : Memory} {lo lo' : Nat} (h : Memory.wfFrom lo m = true) (hle : lo' ≤ lo) :
    Memory.wfFrom lo' m = true := by
  cases m with
  | nil => rfl
  | cons e rest =>
    obtain ⟨b, v⟩ := e
    simp only [Memory.wfFrom, Bool.and_eq_true, decide_eq_true_eq] at h ⊢
    exact ⟨⟨by omega, h.1.2⟩, h.2⟩

theorem Memory.wfFrom_cons {a lo : Nat} {v : Byte} {rest : Memory} (hlo : lo ≤ a)
    (h : Memory.wfFrom (a + 1) rest = true) : Memory.wfFrom lo (Memory.cons a v rest) = true := by
  unfold Memory.cons
  split
  · exact Memory.wfFrom_mono h (by omega)
  · simp_all [Memory.wfFrom]

/-- A write keeps the canonical form. -/
theorem Memory.wfFrom_write {m : Memory} : ∀ {lo : Nat} (a : Nat) (v : Byte), lo ≤ a →
    Memory.wfFrom lo m = true → Memory.wfFrom lo (Memory.write m a v) = true := by
  induction m with
  | nil => intro lo a v hlo _; exact Memory.wfFrom_cons hlo rfl
  | cons e rest ih =>
    obtain ⟨c, u⟩ := e
    intro lo a v hlo h
    have h' := h
    simp only [Memory.wfFrom, Bool.and_eq_true, decide_eq_true_eq] at h
    by_cases h1 : c < a
    · simp [Memory.write, h1, Memory.wfFrom, h.1.1, h.1.2, ih a v (by omega : c + 1 ≤ a) h.2]
    · by_cases h2 : c = a
      · subst h2
        simpa [Memory.write] using Memory.wfFrom_cons h.1.1 h.2
      · have : Memory.wfFrom (a + 1) ((c, u) :: rest) = true := by
          simp only [Memory.wfFrom, Bool.and_eq_true, decide_eq_true_eq]
          exact ⟨⟨by omega, h.1.2⟩, h.2⟩
        simpa [Memory.write, h1, h2] using Memory.wfFrom_cons hlo this

theorem Memory.wf_write {m : Memory} (h : m.wf = true) (a : Nat) (v : Byte) : (m.write a v).wf = true :=
  Memory.wfFrom_write a v (Nat.zero_le _) h

/-! ### The two planes together -/

theorem RegImage.wf_iff (g : RegImage) : g.wf = true ↔ g.known.wf = true ∧ g.bits.wf = true := by
  simp [RegImage.wf]

@[simp] theorem RegImage.wf_empty : RegImage.empty.wf = true := rfl

@[simp] theorem RegImage.read_empty (a : Nat) : RegImage.empty.read a = RegVal.noValue := rfl

/-- A read after a write of one register. -/
theorem RegImage.read_write {g : RegImage} (h : g.wf = true) (a b : Nat) (r : RegVal) :
    (g.write a r).read b = if b = a then r else g.read b := by
  obtain ⟨hk, hb⟩ := (RegImage.wf_iff g).1 h
  unfold Memory.wf at hk hb
  by_cases hab : b = a <;> simp [RegImage.write, RegImage.read, Memory.read_write hk, Memory.read_write hb, hab]

theorem RegImage.wf_write {g : RegImage} (h : g.wf = true) (a : Nat) (r : RegVal) : (g.write a r).wf = true := by
  obtain ⟨hk, hb⟩ := (RegImage.wf_iff g).1 h
  exact (RegImage.wf_iff _).2 ⟨Memory.wf_write hk _ _, Memory.wf_write hb _ _⟩

theorem wf_fillDefaults (p : Params) {g : RegImage} (h : g.wf = true) : ∀ n, (fillDefaults p g n).wf = true
  | 0 => h
  | n + 1 => RegImage.wf_write (wf_fillDefaults p h n) _ _

theorem read_fillDefaults (p : Params) {g : RegImage} (h : g.wf = true) (a : Nat) : ∀ n,
    (fillDefaults p g n).read a = if a < n then RegVal.full (regDefaultAt p a) else g.read a
  | 0 => by simp [fillDefaults]
  | n + 1 => by
    rw [fillDefaults, RegImage.read_write (wf_fillDefaults p h n), read_fillDefaults p h a n]
    by_cases h1 : a = n
    · subst h1; simp
    · by_cases h2 : a < n
      · simp [h1, h2, Nat.lt_succ_of_lt h2]
      · have : ¬a < n + 1 := by omega
        simp [h1, h2, this]

@[simp] theorem wf_defaultImage (p : Params) : (defaultImage p).wf = true := wf_fillDefaults p rfl _

/-- After a chip reset every register of the chip holds its default, and nothing else holds a value (R31, R39). -/
theorem read_defaultImage (p : Params) (a : Nat) : (defaultImage p).read a =
    if a < regCount p then RegVal.full (regDefaultAt p a) else RegVal.noValue := by
  simp [defaultImage, read_fillDefaults p (g := RegImage.empty) rfl]

theorem six_le_regCount (p : Params) : 6 ≤ regCount p := by
  unfold regCount; omega

theorem wf_applyWrite (p : Params) (a v : Byte) {g : RegImage} (h : g.wf = true) :
    (applyWrite p a v g).wf = true := by
  unfold applyWrite
  split
  · exact wf_defaultImage p
  · split
    · exact RegImage.wf_write h _ _
    · exact h

theorem wf_applyUpdate (p : Params) (a m v : Byte) {g : RegImage} (h : g.wf = true) :
    (applyUpdate p a m v g).wf = true := by
  unfold applyUpdate
  split
  · exact RegImage.wf_write h _ _
  · exact h

/-- What an applied WRITE leaves in each register (R37, R39). -/
theorem read_applyWrite (p : Params) (a v : Byte) {g : RegImage} (h : g.wf = true) (b : Nat) :
    (applyWrite p a v g).read b =
      if a = 0x00#8 ∧ v = 0x07#8 then (defaultImage p).read b
      else if a.toNat < regCount p ∧ b = a.toNat then RegVal.full v else g.read b := by
  unfold applyWrite
  split
  · rfl
  · split
    · rename_i h2
      simp [RegImage.read_write h, h2]
    · rename_i h2
      simp [h2]

/-- What an applied UPDATE leaves in each register (R38). -/
theorem read_applyUpdate (p : Params) (a m v : Byte) {g : RegImage} (h : g.wf = true) (b : Nat) :
    (applyUpdate p a m v g).read b =
      if a.toNat < regCount p ∧ b = a.toNat then (g.read b).update m v else g.read b := by
  unfold applyUpdate
  split
  · rename_i h2
    rw [RegImage.read_write h]
    by_cases hb : b = a.toNat
    · simp [hb, h2]
    · simp [hb]
  · rename_i h2
    simp [h2]

theorem wf_imageAfterPowerOff (p : Params) {g : RegImage} (h : g.wf = true) :
    (imageAfterPowerOff p g).wf = true := by
  unfold imageAfterPowerOff
  split
  · exact h
  · rfl

end Sys2Proof.Machine
end

