-- ==== Sys2Proof/Laws/Ports.lean ====
section
/-! SUPPORT. What one call on the bus port or the power-source port does, field by field, and the draws it takes. -/

namespace Sys2Proof.Machine

open Sys2Proof

/-! ### Draws -/

theorem State.nextDraw_eq (s : State) : s.nextDraw = s.drawAt 0 := by
  unfold State.nextDraw State.drawAt
  cases s.draws <;> simp

@[simp] theorem State.drawAt_takeDraw (s : State) (k : Nat) : s.takeDraw.drawAt k = s.drawAt (k + 1) := by
  simp [State.drawAt, Nat.add_assoc, Nat.add_comm 1 k]

/-- The answers to come depend only on the supplied answers and the counter. -/
theorem State.drawAt_congr {s t : State} (h1 : t.draws = s.draws) (h2 : t.drawn = s.drawn) (k : Nat) :
    t.drawAt k = s.drawAt k := by
  simp [State.drawAt, h1, h2]

/-! ### The bus port -/

/-- Whether a WRITE or UPDATE issued now takes effect (R37). -/
def State.applies (s : State) : Bool := s.takesEffect s.nextDraw

section
variable (a m v : Byte) (s : State)

@[simp] theorem busWrite_result : (busWrite a v s).1 = s.nextDraw.result := rfl
@[simp] theorem busUpdate_result : (busUpdate a m v s).1 = s.nextDraw.result := rfl

theorem busWrite_eq : (busWrite a v s).2 =
    { s with
      image := if s.applies then applyWrite s.config a v s.image else s.image
      chipMode := if s.applies then modeAfterWrite a v s.chipMode else s.chipMode
      trace := s.trace ++ [.bus .write a 0xFF#8 v s.nextDraw.result]
      draws := s.draws.tail
      drawn := s.drawn + 1 } := by
  unfold busWrite State.applies
  by_cases h : s.takesEffect s.nextDraw = true <;>
    simp [h, State.setImage, State.setChipMode, State.emit, State.takeDraw]

theorem busUpdate_eq : (busUpdate a m v s).2 =
    { s with
      image := if s.applies then applyUpdate s.config a m v s.image else s.image
      trace := s.trace ++ [.bus .update a m v s.nextDraw.result]
      draws := s.draws.tail
      drawn := s.drawn + 1 } := by
  unfold busUpdate State.applies
  by_cases h : s.takesEffect s.nextDraw = true <;>
    simp [h, State.setImage, State.emit, State.takeDraw]

@[simp] theorem busWrite_lifecycle : (busWrite a v s).2.lifecycle = s.lifecycle := by rw [busWrite_eq]
@[simp] theorem busWrite_enabled : (busWrite a v s).2.enabled = s.enabled := by rw [busWrite_eq]
@[simp] theorem busWrite_psrcOn : (busWrite a v s).2.psrcOn = s.psrcOn := by rw [busWrite_eq]
@[simp] theorem busWrite_ledBright : (busWrite a v s).2.ledBright = s.ledBright := by rw [busWrite_eq]
@[simp] theorem busWrite_chBright : (busWrite a v s).2.chBright = s.chBright := by rw [busWrite_eq]
@[simp] theorem busWrite_config : (busWrite a v s).2.config = s.config := by rw [busWrite_eq]
@[simp] theorem busWrite_responses : (busWrite a v s).2.responses = s.responses := by rw [busWrite_eq]
@[simp] theorem busWrite_pending : (busWrite a v s).2.pending = s.pending := by rw [busWrite_eq]
@[simp] theorem busWrite_draws : (busWrite a v s).2.draws = s.draws.tail := by rw [busWrite_eq]
@[simp] theorem busWrite_drawn : (busWrite a v s).2.drawn = s.drawn + 1 := by rw [busWrite_eq]
@[simp] theorem busWrite_trace : (busWrite a v s).2.trace =
    s.trace ++ [.bus .write a 0xFF#8 v s.nextDraw.result] := by rw [busWrite_eq]
@[simp] theorem busWrite_image : (busWrite a v s).2.image =
    if s.applies then applyWrite s.config a v s.image else s.image := by rw [busWrite_eq]
@[simp] theorem busWrite_chipMode : (busWrite a v s).2.chipMode =
    if s.applies then modeAfterWrite a v s.chipMode else s.chipMode := by rw [busWrite_eq]
@[simp] theorem busWrite_drawAt (k : Nat) : (busWrite a v s).2.drawAt k = s.drawAt (k + 1) := by
  rw [← State.drawAt_takeDraw]
  exact State.drawAt_congr (by simp) (by simp) k

@[simp] theorem busUpdate_lifecycle : (busUpdate a m v s).2.lifecycle = s.lifecycle := by rw [busUpdate_eq]
@[simp] theorem busUpdate_enabled : (busUpdate a m v s).2.enabled = s.enabled := by rw [busUpdate_eq]
@[simp] theorem busUpdate_psrcOn : (busUpdate a m v s).2.psrcOn = s.psrcOn := by rw [busUpdate_eq]
@[simp] theorem busUpdate_ledBright : (busUpdate a m v s).2.ledBright = s.ledBright := by rw [busUpdate_eq]
@[simp] theorem busUpdate_chBright : (busUpdate a m v s).2.chBright = s.chBright := by rw [busUpdate_eq]
@[simp] theorem busUpdate_config : (busUpdate a m v s).2.config = s.config := by rw [busUpdate_eq]
@[simp] theorem busUpdate_responses : (busUpdate a m v s).2.responses = s.responses := by rw [busUpdate_eq]
@[simp] theorem busUpdate_pending : (busUpdate a m v s).2.pending = s.pending := by rw [busUpdate_eq]
@[simp] theorem busUpdate_chipMode : (busUpdate a m v s).2.chipMode = s.chipMode := by rw [busUpdate_eq]
@[simp] theorem busUpdate_draws : (busUpdate a m v s).2.draws = s.draws.tail := by rw [busUpdate_eq]
@[simp] theorem busUpdate_drawn : (busUpdate a m v s).2.drawn = s.drawn + 1 := by rw [busUpdate_eq]
@[simp] theorem busUpdate_trace : (busUpdate a m v s).2.trace =
    s.trace ++ [.bus .update a m v s.nextDraw.result] := by rw [busUpdate_eq]
@[simp] theorem busUpdate_image : (busUpdate a m v s).2.image =
    if s.applies then applyUpdate s.config a m v s.image else s.image := by rw [busUpdate_eq]
@[simp] theorem busUpdate_drawAt (k : Nat) : (busUpdate a m v s).2.drawAt k = s.drawAt (k + 1) := by
  rw [← State.drawAt_takeDraw]
  exact State.drawAt_congr (by simp) (by simp) k

end

/-- What one WRITE leaves in each register (R37, R39). -/
theorem busWrite_reg (a v : Byte) {s : State} (h : s.image.wf = true) (b : Nat) :
    (busWrite a v s).2.reg b =
      if s.applies then
        if a = 0x00#8 ∧ v = 0x07#8 then (defaultImage s.config).read b
        else if a.toNat < regCount s.config ∧ b = a.toNat then RegVal.full v else s.reg b
      else s.reg b := by
  unfold State.reg
  rw [busWrite_image]
  split
  · exact read_applyWrite s.config a v h b
  · rfl

/-- What one UPDATE leaves in each register (R38). -/
theorem busUpdate_reg (a m v : Byte) {s : State} (h : s.image.wf = true) (b : Nat) :
    (busUpdate a m v s).2.reg b =
      if s.applies ∧ a.toNat < regCount s.config ∧ b = a.toNat then (s.reg b).update m v else s.reg b := by
  unfold State.reg
  rw [busUpdate_image]
  by_cases h1 : s.applies = true
  · simpa [h1] using read_applyUpdate s.config a m v h b
  · simp [h1]

theorem busWrite_wf (a v : Byte) {s : State} (h : s.image.wf = true) : (busWrite a v s).2.image.wf = true := by
  rw [busWrite_image]
  split
  · exact wf_applyWrite _ _ _ h
  · exact h

theorem busUpdate_wf (a m v : Byte) {s : State} (h : s.image.wf = true) :
    (busUpdate a m v s).2.image.wf = true := by
  rw [busUpdate_image]
  split
  · exact wf_applyUpdate _ _ _ _ h
  · exact h

/-- A transaction on a powered chip that is answered OK takes effect (R37). -/
theorem State.applies_of_ok {s : State} (h : s.psrcOn = true) (hr : s.nextDraw.result = .ok) : s.applies = true := by
  simp [State.applies, State.takesEffect, h, hr]

/-! ### The power-source port -/

section
variable (s : State)

@[simp] theorem powerEnable_result : (powerEnable s).1 = s.nextDraw.result := by
  unfold powerEnable
  cases s.nextDraw.result <;> rfl

@[simp] theorem powerDisable_result : (powerDisable s).1 = s.nextDraw.result := by
  unfold powerDisable
  cases s.nextDraw.result <;> rfl

theorem powerEnable_eq : (powerEnable s).2 =
    { s with
      psrcOn := if s.nextDraw.result = .ok then true else s.psrcOn
      chipMode := if s.nextDraw.result = .ok ∧ s.psrcOn = false then .unset else s.chipMode
      trace := s.trace ++ [.pwr .enable s.nextDraw.result]
      draws := s.draws.tail
      drawn := s.drawn + 1 } := by
  unfold powerEnable
  cases s.nextDraw.result <;> cases hp : s.psrcOn <;>
    simp [hp, State.setPsrcOn, State.setChipMode, State.emit, State.takeDraw]

theorem powerDisable_eq : (powerDisable s).2 =
    { s with
      psrcOn := if s.nextDraw.result = .ok then false else s.psrcOn
      image := if s.nextDraw.result = .ok then imageAfterPowerOff s.config s.image else s.image
      chipMode := if s.nextDraw.result = .ok then .unset else s.chipMode
      trace := s.trace ++ [.pwr .disable s.nextDraw.result]
      draws := s.draws.tail
      drawn := s.drawn + 1 } := by
  unfold powerDisable
  cases s.nextDraw.result <;>
    simp [State.setPsrcOn, State.setChipMode, State.setImage, State.emit, State.takeDraw]

@[simp] theorem powerEnable_lifecycle : (powerEnable s).2.lifecycle = s.lifecycle := by rw [powerEnable_eq]
@[simp] theorem powerEnable_enabled : (powerEnable s).2.enabled = s.enabled := by rw [powerEnable_eq]
@[simp] theorem powerEnable_ledBright : (powerEnable s).2.ledBright = s.ledBright := by rw [powerEnable_eq]
@[simp] theorem powerEnable_chBright : (powerEnable s).2.chBright = s.chBright := by rw [powerEnable_eq]
@[simp] theorem powerEnable_image : (powerEnable s).2.image = s.image := by rw [powerEnable_eq]
@[simp] theorem powerEnable_config : (powerEnable s).2.config = s.config := by rw [powerEnable_eq]
@[simp] theorem powerEnable_responses : (powerEnable s).2.responses = s.responses := by rw [powerEnable_eq]
@[simp] theorem powerEnable_pending : (powerEnable s).2.pending = s.pending := by rw [powerEnable_eq]
@[simp] theorem powerEnable_draws : (powerEnable s).2.draws = s.draws.tail := by rw [powerEnable_eq]
@[simp] theorem powerEnable_drawn : (powerEnable s).2.drawn = s.drawn + 1 := by rw [powerEnable_eq]
@[simp] theorem powerEnable_trace : (powerEnable s).2.trace =
    s.trace ++ [.pwr .enable s.nextDraw.result] := by rw [powerEnable_eq]
@[simp] theorem powerEnable_psrcOn : (powerEnable s).2.psrcOn =
    if s.nextDraw.result = .ok then true else s.psrcOn := by rw [powerEnable_eq]
@[simp] theorem powerEnable_chipMode : (powerEnable s).2.chipMode =
    if s.nextDraw.result = .ok ∧ s.psrcOn = false then .unset else s.chipMode := by rw [powerEnable_eq]
@[simp] theorem powerEnable_reg (b : Nat) : (powerEnable s).2.reg b = s.reg b := by simp [State.reg]
@[simp] theorem powerEnable_drawAt (k : Nat) : (powerEnable s).2.drawAt k = s.drawAt (k + 1) := by
  rw [← State.drawAt_takeDraw]
  exact State.drawAt_congr (by simp) (by simp) k

@[simp] theorem powerDisable_lifecycle : (powerDisable s).2.lifecycle = s.lifecycle := by rw [powerDisable_eq]
@[simp] theorem powerDisable_enabled : (powerDisable s).2.enabled = s.enabled := by rw [powerDisable_eq]
@[simp] theorem powerDisable_ledBright : (powerDisable s).2.ledBright = s.ledBright := by rw [powerDisable_eq]
@[simp] theorem powerDisable_chBright : (powerDisable s).2.chBright = s.chBright := by rw [powerDisable_eq]
@[simp] theorem powerDisable_config : (powerDisable s).2.config = s.config := by rw [powerDisable_eq]
@[simp] theorem powerDisable_responses : (powerDisable s).2.responses = s.responses := by rw [powerDisable_eq]
@[simp] theorem powerDisable_pending : (powerDisable s).2.pending = s.pending := by rw [powerDisable_eq]
@[simp] theorem powerDisable_draws : (powerDisable s).2.draws = s.draws.tail := by rw [powerDisable_eq]
@[simp] theorem powerDisable_drawn : (powerDisable s).2.drawn = s.drawn + 1 := by rw [powerDisable_eq]
@[simp] theorem powerDisable_trace : (powerDisable s).2.trace =
    s.trace ++ [.pwr .disable s.nextDraw.result] := by rw [powerDisable_eq]
@[simp] theorem powerDisable_psrcOn : (powerDisable s).2.psrcOn =
    if s.nextDraw.result = .ok then false else s.psrcOn := by rw [powerDisable_eq]
@[simp] theorem powerDisable_image : (powerDisable s).2.image =
    if s.nextDraw.result = .ok then imageAfterPowerOff s.config s.image else s.image := by rw [powerDisable_eq]
@[simp] theorem powerDisable_chipMode : (powerDisable s).2.chipMode =
    if s.nextDraw.result = .ok then .unset else s.chipMode := by rw [powerDisable_eq]
@[simp] theorem powerDisable_drawAt (k : Nat) : (powerDisable s).2.drawAt k = s.drawAt (k + 1) := by
  rw [← State.drawAt_takeDraw]
  exact State.drawAt_congr (by simp) (by simp) k

end

theorem powerDisable_wf {s : State} (h : s.image.wf = true) : (powerDisable s).2.image.wf = true := by
  rw [powerDisable_image]
  split
  · exact wf_imageAfterPowerOff _ h
  · exact h

/-! ### The settle wait (R10, R111, R116) -/

section
variable (s : State)
@[simp] theorem settleWait_lifecycle : (settleWait s).lifecycle = s.lifecycle := rfl
@[simp] theorem settleWait_enabled : (settleWait s).enabled = s.enabled := rfl
@[simp] theorem settleWait_psrcOn : (settleWait s).psrcOn = s.psrcOn := rfl
@[simp] theorem settleWait_ledBright : (settleWait s).ledBright = s.ledBright := rfl
@[simp] theorem settleWait_chBright : (settleWait s).chBright = s.chBright := rfl
@[simp] theorem settleWait_image : (settleWait s).image = s.image := rfl
@[simp] theorem settleWait_chipMode : (settleWait s).chipMode = modeAfterSettle s.chipMode := rfl
@[simp] theorem settleWait_config : (settleWait s).config = s.config := rfl
@[simp] theorem settleWait_trace : (settleWait s).trace = s.trace ++ [.wait s.config.settleUs] := rfl
@[simp] theorem settleWait_responses : (settleWait s).responses = s.responses := rfl
@[simp] theorem settleWait_pending : (settleWait s).pending = s.pending := rfl
@[simp] theorem settleWait_draws : (settleWait s).draws = s.draws := rfl
@[simp] theorem settleWait_drawn : (settleWait s).drawn = s.drawn := rfl
@[simp] theorem settleWait_drawAt (k : Nat) : (settleWait s).drawAt k = s.drawAt k := rfl
@[simp] theorem settleWait_reg (a : Nat) : (settleWait s).reg a = s.reg a := rfl
end

/-- No chip is resetting after a settle wait (R111). -/
theorem modeAfterSettle_ne_reset (m : ChipMode) : modeAfterSettle m ≠ .reset := by cases m <;> simp [modeAfterSettle]

/-! ### Micro-operations -/

@[simp] theorem done_state (s : State) : (done s).state = s := rfl
@[simp] theorem done_raised (s : State) : (done s).raised = none := rfl
@[simp] theorem raise_state (e : Error) (s : State) : (raise e s).state = s := rfl
@[simp] theorem raise_raised (e : Error) (s : State) : (raise e s).raised = some e := rfl
@[simp] theorem done_andThen (s : State) (f : State → Micro) : (done s).andThen f = f s := rfl
@[simp] theorem raise_andThen (e : Error) (s : State) (f : State → Micro) :
    (raise e s).andThen f = raise e s := rfl

/-- What a step after another can do: it ran, or an earlier error stands (R99). -/
theorem Micro.andThen_cases (m : Micro) (f : State → Micro) :
    (m.raised = none ∧ m.andThen f = f m.state) ∨ (∃ e, m.raised = some e ∧ m.andThen f = m) := by
  unfold Micro.andThen
  cases h : m.raised <;> simp

@[simp] theorem orRaise_state (e : Error) (x : Result × State) : (orRaise e x).state = x.2 := by
  unfold orRaise
  cases x.1 <;> rfl

theorem orRaise_raised (e : Error) (x : Result × State) :
    (orRaise e x).raised = if x.1 = .ok then none else some e := by
  unfold orRaise
  cases h : x.1 <;> simp

theorem orRaise_ok {e : Error} {x : Result × State} (h : x.1 = .ok) : orRaise e x = done x.2 := by
  simp [orRaise, h]

theorem orRaise_err {e : Error} {x : Result × State} (h : x.1 = .err) : orRaise e x = raise e x.2 := by
  simp [orRaise, h]

@[simp] theorem conclude_done (s : State) (a b c d : Millis) :
    (done s).conclude a b c d = s.respond ⟨.ok, a, b⟩ := rfl
@[simp] theorem conclude_raise (e : Error) (s : State) (a b c d : Millis) :
    (raise e s).conclude a b c d = s.respond ⟨e.status, c, d⟩ := rfl

/-- A concluded request appends exactly one response to what its micro-operation left. -/
theorem Micro.conclude_eq (m : Micro) (a b c d : Millis) :
    ∃ r, m.conclude a b c d = m.state.respond r := by
  unfold Micro.conclude
  cases m.raised <;> exact ⟨_, rfl⟩

end Sys2Proof.Machine
end

