-- ==== Sys2Proof/Laws/Requests.lean ====
section
/-! SUPPORT. What each micro-operation and request can do, said once: its cases, its frame, and what it leaves when nothing
fails. -/

namespace Sys2Proof.Machine

open Sys2Proof

/-! ### The power controller -/

/-- Everything ENSURE_ENABLED can do (R68). -/
theorem ensureEnabled_cases (s : State) :
    (s.enabled = true ∧ ensureEnabled s = done s) ∨
    (s.enabled = false ∧ (s.drawAt 0).result = .err ∧ ensureEnabled s = raise .power (powerEnable s).2) ∨
    (s.enabled = false ∧ (s.drawAt 0).result = .ok ∧ (s.drawAt 1).result = .ok ∧
      ensureEnabled s = done ((busWrite 0x00#8 0x00#8 (powerEnable s).2).2.setEnabled true)) ∨
    (s.enabled = false ∧ (s.drawAt 0).result = .ok ∧ (s.drawAt 1).result = .err ∧
      ensureEnabled s = raise .bus (powerDisable (busWrite 0x00#8 0x00#8 (powerEnable s).2).2).2) := by
  unfold ensureEnabled
  cases he : s.enabled
  · cases h0 : (s.drawAt 0).result
    · have h1 : (powerEnable s).1 = .ok := by simp [State.nextDraw_eq, h0]
      have h2 : (busWrite 0x00#8 0x00#8 (powerEnable s).2).1 = (s.drawAt 1).result := by
        simp [State.nextDraw_eq]
      rw [orRaise_ok h1]
      cases h3 : (s.drawAt 1).result <;> rw [h3] at h2 <;> simp only [done_andThen, wakeChip, h2] <;> simp
    · have h1 : (powerEnable s).1 = .err := by simp [State.nextDraw_eq, h0]
      simp [orRaise_err h1]
  · simp

/-- Everything ENSURE_DISABLED can do (R69): it never raises. -/
theorem ensureDisabled_cases (s : State) :
    (s.enabled = false ∧ ensureDisabled s = s) ∨
    (s.enabled = true ∧ (s.drawAt 1).result = .ok ∧
      ensureDisabled s = (powerDisable (busWrite 0x00#8 0x08#8 s).2).2.setEnabled false) ∨
    (s.enabled = true ∧ (s.drawAt 1).result = .err ∧
      ensureDisabled s = (powerDisable (busWrite 0x00#8 0x08#8 s).2).2) := by
  unfold ensureDisabled
  cases he : s.enabled
  · simp
  · have h1 : (powerDisable (busWrite 0x00#8 0x08#8 s).2).1 = (s.drawAt 1).result := by
      simp [State.nextDraw_eq]
    cases h2 : (s.drawAt 1).result <;> rw [h2] at h1 <;> simp only [clearEnabledOnOk, h1] <;> simp

section
variable (s : State)

@[simp] theorem ensureEnabled_config : (ensureEnabled s).state.config = s.config := by
  rcases ensureEnabled_cases s with ⟨_, h⟩ | ⟨_, _, h⟩ | ⟨_, _, _, h⟩ | ⟨_, _, _, h⟩ <;> simp [h]
@[simp] theorem ensureEnabled_lifecycle : (ensureEnabled s).state.lifecycle = s.lifecycle := by
  rcases ensureEnabled_cases s with ⟨_, h⟩ | ⟨_, _, h⟩ | ⟨_, _, _, h⟩ | ⟨_, _, _, h⟩ <;> simp [h]
@[simp] theorem ensureEnabled_ledBright : (ensureEnabled s).state.ledBright = s.ledBright := by
  rcases ensureEnabled_cases s with ⟨_, h⟩ | ⟨_, _, h⟩ | ⟨_, _, _, h⟩ | ⟨_, _, _, h⟩ <;> simp [h]
@[simp] theorem ensureEnabled_chBright : (ensureEnabled s).state.chBright = s.chBright := by
  rcases ensureEnabled_cases s with ⟨_, h⟩ | ⟨_, _, h⟩ | ⟨_, _, _, h⟩ | ⟨_, _, _, h⟩ <;> simp [h]
@[simp] theorem ensureEnabled_responses : (ensureEnabled s).state.responses = s.responses := by
  rcases ensureEnabled_cases s with ⟨_, h⟩ | ⟨_, _, h⟩ | ⟨_, _, _, h⟩ | ⟨_, _, _, h⟩ <;> simp [h]
@[simp] theorem ensureEnabled_pending : (ensureEnabled s).state.pending = s.pending := by
  rcases ensureEnabled_cases s with ⟨_, h⟩ | ⟨_, _, h⟩ | ⟨_, _, _, h⟩ | ⟨_, _, _, h⟩ <;> simp [h]

@[simp] theorem ensureDisabled_config : (ensureDisabled s).config = s.config := by
  rcases ensureDisabled_cases s with ⟨_, h⟩ | ⟨_, _, h⟩ | ⟨_, _, h⟩ <;> simp [h]
@[simp] theorem ensureDisabled_lifecycle : (ensureDisabled s).lifecycle = s.lifecycle := by
  rcases ensureDisabled_cases s with ⟨_, h⟩ | ⟨_, _, h⟩ | ⟨_, _, h⟩ <;> simp [h]
@[simp] theorem ensureDisabled_ledBright : (ensureDisabled s).ledBright = s.ledBright := by
  rcases ensureDisabled_cases s with ⟨_, h⟩ | ⟨_, _, h⟩ | ⟨_, _, h⟩ <;> simp [h]
@[simp] theorem ensureDisabled_chBright : (ensureDisabled s).chBright = s.chBright := by
  rcases ensureDisabled_cases s with ⟨_, h⟩ | ⟨_, _, h⟩ | ⟨_, _, h⟩ <;> simp [h]
@[simp] theorem ensureDisabled_responses : (ensureDisabled s).responses = s.responses := by
  rcases ensureDisabled_cases s with ⟨_, h⟩ | ⟨_, _, h⟩ | ⟨_, _, h⟩ <;> simp [h]
@[simp] theorem ensureDisabled_pending : (ensureDisabled s).pending = s.pending := by
  rcases ensureDisabled_cases s with ⟨_, h⟩ | ⟨_, _, h⟩ | ⟨_, _, h⟩ <;> simp [h]

end

/-- Everything the gating wrapper can do (R79): the power-up raised, the body raised, or the body ran and the power-down
followed where no LED is active. -/
theorem gated_cases (bOld bNew : List Byte) (body : State → Micro) (s : State) :
    ∃ up : Micro,
      up = (if anyActive s.config.ledCount bNew || anyActive s.config.ledCount bOld then ensureEnabled s
        else done s) ∧
      ((∃ e, up.raised = some e ∧ gated bOld bNew body s = up) ∨
       (up.raised = none ∧ ∃ e, (body up.state).raised = some e ∧ gated bOld bNew body s = body up.state) ∨
       (up.raised = none ∧ (body up.state).raised = none ∧
         gated bOld bNew body s = done (if anyActive s.config.ledCount bNew then (body up.state).state
           else ensureDisabled (body up.state).state))) := by
  refine ⟨_, rfl, ?_⟩
  unfold gated
  dsimp only
  generalize (if anyActive s.config.ledCount bNew || anyActive s.config.ledCount bOld then ensureEnabled s
    else done s) = up
  cases h1 : up.raised with
  | some e => left; exact ⟨e, rfl, by simp [Micro.andThen, h1]⟩
  | none =>
    right
    cases h2 : (body up.state).raised with
    | some e => left; exact ⟨rfl, e, rfl, by simp [Micro.andThen, h1, h2]⟩
    | none => right; exact ⟨rfl, rfl, by simp [Micro.andThen, h1, h2]⟩

/-! ### The channel driver -/

@[simp] theorem ctrlSet_state (c : Nat) (f : BitVec 2) (s : State) :
    (ctrlSet c f s).state = (busUpdate 0x04#8 (ctrlMask c) (ctrlData c f) s).2 := by simp [ctrlSet]

@[simp] theorem groupCtrl_state (cs : List Nat) (f : BitVec 2) (s : State) :
    (groupCtrl cs f s).state = (busUpdate 0x04#8 (groupMask cs) (groupData f cs) s).2 := by simp [groupCtrl]

theorem groupCtrl_raised (cs : List Nat) (f : BitVec 2) (s : State) :
    (groupCtrl cs f s).raised = if (s.drawAt 0).result = .ok then none else some .bus := by
  simp [groupCtrl, orRaise_raised, State.nextDraw_eq]

/-- The state in which SET_CHANNEL issues its first write (R77). -/
def channelStart (c : Nat) (b : Byte) (s : State) : State := s.setChBright (s.chBright.set c b)

/-- Everything SET_CHANNEL can do (R77). -/
theorem setChannel_cases (c : Nat) (b : Byte) (s : State) :
    ((s.drawAt 0).result = .err ∧
      setChannel c b s = raise .bus (busWrite (iledAddr c) (iledCode b) (channelStart c b s)).2) ∨
    ((s.drawAt 0).result = .ok ∧
      setChannel c b s = ctrlSet c (modeFor b) (busWrite (iledAddr c) (iledCode b) (channelStart c b s)).2) := by
  have h : (busWrite (iledAddr c) (iledCode b) (channelStart c b s)).1 = (s.drawAt 0).result := by
    rw [busWrite_result, State.nextDraw_eq]
    exact congrArg Draw.result (State.drawAt_congr rfl rfl 0)
  cases h0 : (s.drawAt 0).result <;> rw [h0] at h
  · right; exact ⟨rfl, by unfold setChannel; rw [← channelStart, orRaise_ok h, done_andThen]⟩
  · left; exact ⟨rfl, by unfold setChannel; rw [← channelStart, orRaise_err h, raise_andThen]⟩

@[simp] theorem channelStart_drawAt (c : Nat) (b : Byte) (s : State) (k : Nat) :
    (channelStart c b s).drawAt k = s.drawAt k := State.drawAt_congr rfl rfl k

section
variable (c : Nat) (b : Byte) (s : State)

@[simp] theorem setChannel_config : (setChannel c b s).state.config = s.config := by
  rcases setChannel_cases c b s with ⟨_, h⟩ | ⟨_, h⟩ <;> simp [h, channelStart]
@[simp] theorem setChannel_lifecycle : (setChannel c b s).state.lifecycle = s.lifecycle := by
  rcases setChannel_cases c b s with ⟨_, h⟩ | ⟨_, h⟩ <;> simp [h, channelStart]
@[simp] theorem setChannel_enabled : (setChannel c b s).state.enabled = s.enabled := by
  rcases setChannel_cases c b s with ⟨_, h⟩ | ⟨_, h⟩ <;> simp [h, channelStart]
@[simp] theorem setChannel_psrcOn : (setChannel c b s).state.psrcOn = s.psrcOn := by
  rcases setChannel_cases c b s with ⟨_, h⟩ | ⟨_, h⟩ <;> simp [h, channelStart]
@[simp] theorem setChannel_ledBright : (setChannel c b s).state.ledBright = s.ledBright := by
  rcases setChannel_cases c b s with ⟨_, h⟩ | ⟨_, h⟩ <;> simp [h, channelStart]
@[simp] theorem setChannel_chBright : (setChannel c b s).state.chBright = s.chBright.set c b := by
  rcases setChannel_cases c b s with ⟨_, h⟩ | ⟨_, h⟩ <;> simp [h, channelStart]
@[simp] theorem setChannel_responses : (setChannel c b s).state.responses = s.responses := by
  rcases setChannel_cases c b s with ⟨_, h⟩ | ⟨_, h⟩ <;> simp [h, channelStart]
@[simp] theorem setChannel_pending : (setChannel c b s).state.pending = s.pending := by
  rcases setChannel_cases c b s with ⟨_, h⟩ | ⟨_, h⟩ <;> simp [h, channelStart]

end

theorem setChannel_wf (c : Nat) (b : Byte) {s : State} (h : s.image.wf = true) :
    (setChannel c b s).state.image.wf = true := by
  rcases setChannel_cases c b s with ⟨_, h'⟩ | ⟨_, h'⟩ <;> rw [h']
  · exact busWrite_wf _ _ h
  · rw [ctrlSet_state]; exact busUpdate_wf _ _ _ (busWrite_wf _ _ h)

/-- SET_CHANNEL with both answers OK (R77). -/
theorem setChannel_ok (c : Nat) (b : Byte) {s : State} (h : s.okFor 2) :
    setChannel c b s = done (busUpdate 0x04#8 (ctrlMask c) (ctrlData c (modeFor b))
      (busWrite (iledAddr c) (iledCode b) (channelStart c b s)).2).2 := by
  rcases setChannel_cases c b s with ⟨h0, _⟩ | ⟨_, h'⟩
  · rw [h 0 (by omega)] at h0; cases h0
  · rw [h', ctrlSet, orRaise_ok]
    simp [State.nextDraw_eq, h 1 (by omega)]

theorem setChannel_ok_trace (c : Nat) (b : Byte) {s : State} (h : s.okFor 2) :
    (setChannel c b s).state.trace = s.trace ++ channelEvents c b := by
  rw [setChannel_ok c b h]
  have h0 := h 0 (by omega)
  have h1 := h 1 (by omega)
  simp [channelEvents, State.nextDraw_eq, h0, h1]
  rfl

theorem setChannel_ok_drawAt (c : Nat) (b : Byte) {s : State} (h : s.okFor 2) (k : Nat) :
    (setChannel c b s).state.drawAt k = s.drawAt (k + 2) := by
  rw [setChannel_ok c b h]
  simp

theorem writeChannels_nil (s : State) : writeChannels [] s = done s := rfl

theorem writeChannels_cons (c : Nat) (b : Byte) (rest : List (Nat × Byte)) (s : State) :
    writeChannels ((c, b) :: rest) s = (setChannel c b s).andThen (writeChannels rest) := rfl

/-- A property that SET_CHANNEL keeps for each pair is kept by the loop. -/
theorem writeChannels_keeps (P : State → Prop) : ∀ {ps : List (Nat × Byte)} {s : State},
    (∀ x ∈ ps, ∀ u, P u → P (setChannel x.1 x.2 u).state) → P s → P (writeChannels ps s).state
  | [], _, _, h => h
  | (c, b) :: rest, s, hk, h => by
    have h1 : P (setChannel c b s).state := hk (c, b) (by simp) s h
    rw [writeChannels_cons]
    rcases Micro.andThen_cases (setChannel c b s) (writeChannels rest) with ⟨_, h'⟩ | ⟨_, _, h'⟩ <;> rw [h']
    · exact writeChannels_keeps P (fun x hx => hk x (by simp [hx])) h1
    · exact h1

section
variable (ps : List (Nat × Byte)) (s : State)

@[simp] theorem writeChannels_config : (writeChannels ps s).state.config = s.config :=
  writeChannels_keeps (fun u => u.config = s.config) (by intros; simp_all) rfl
@[simp] theorem writeChannels_lifecycle : (writeChannels ps s).state.lifecycle = s.lifecycle :=
  writeChannels_keeps (fun u => u.lifecycle = s.lifecycle) (by intros; simp_all) rfl
@[simp] theorem writeChannels_enabled : (writeChannels ps s).state.enabled = s.enabled :=
  writeChannels_keeps (fun u => u.enabled = s.enabled) (by intros; simp_all) rfl
@[simp] theorem writeChannels_psrcOn : (writeChannels ps s).state.psrcOn = s.psrcOn :=
  writeChannels_keeps (fun u => u.psrcOn = s.psrcOn) (by intros; simp_all) rfl
@[simp] theorem writeChannels_ledBright : (writeChannels ps s).state.ledBright = s.ledBright :=
  writeChannels_keeps (fun u => u.ledBright = s.ledBright) (by intros; simp_all) rfl
@[simp] theorem writeChannels_responses : (writeChannels ps s).state.responses = s.responses :=
  writeChannels_keeps (fun u => u.responses = s.responses) (by intros; simp_all) rfl
@[simp] theorem writeChannels_pending : (writeChannels ps s).state.pending = s.pending :=
  writeChannels_keeps (fun u => u.pending = s.pending) (by intros; simp_all) rfl

end

theorem writeChannels_wf (ps : List (Nat × Byte)) {s : State} (h : s.image.wf = true) :
    (writeChannels ps s).state.image.wf = true :=
  writeChannels_keeps (fun u => u.image.wf = true) (fun _ _ _ hu => setChannel_wf _ _ hu) h

/-- The loop when every answer is OK: it raises nothing and emits both events of each pair (R78). -/
theorem writeChannels_ok : ∀ (ps : List (Nat × Byte)) {s : State}, s.okFor (2 * ps.length) →
    (writeChannels ps s).raised = none ∧
    (writeChannels ps s).state.trace = s.trace ++ ps.flatMap (fun x => channelEvents x.1 x.2) ∧
    ∀ k, (writeChannels ps s).state.drawAt k = s.drawAt (k + 2 * ps.length)
  | [], s, _ => by simp [writeChannels_nil]
  | (c, b) :: rest, s, h => by
    have h2 : s.okFor 2 := fun k hk => h k (by simp; omega)
    have hraise : (setChannel c b s).raised = none := by rw [setChannel_ok c b h2]; rfl
    have hd := setChannel_ok_drawAt c b h2
    have hrest : (setChannel c b s).state.okFor (2 * rest.length) := fun k hk => by
      rw [hd]; exact h (k + 2) (by simp; omega)
    obtain ⟨i1, i2, i3⟩ := writeChannels_ok rest hrest
    rw [writeChannels_cons]
    rcases Micro.andThen_cases (setChannel c b s) (writeChannels rest) with ⟨_, h'⟩ | ⟨_, h'', _⟩
    · rw [h']
      refine ⟨i1, ?_, fun k => ?_⟩
      · rw [i2, setChannel_ok_trace c b h2]; simp
      · rw [i3, hd]; rfl
    · rw [hraise] at h''; cases h''

/-! ### SET_BLINK's writes -/

/-- Everything the general path's writes can do (R91). -/
theorem blinkWrites_cases (cs : List Nat) (g : Timing) (s : State) :
    ((s.drawAt 0).result = .err ∧ blinkWrites cs g s = raise .bus (busWrite 0x01#8 g.steps s).2) ∨
    ((s.drawAt 0).result = .ok ∧ (s.drawAt 1).result = .err ∧
      blinkWrites cs g s = raise .bus (busWrite 0x02#8 g.code (busWrite 0x01#8 g.steps s).2).2) ∨
    ((s.drawAt 0).result = .ok ∧ (s.drawAt 1).result = .ok ∧
      blinkWrites cs g s = groupCtrl cs 2#2 (busWrite 0x02#8 g.code (busWrite 0x01#8 g.steps s).2).2) := by
  unfold blinkWrites
  cases h0 : (s.drawAt 0).result
  · have e0 : (busWrite 0x01#8 g.steps s).1 = .ok := by simp [State.nextDraw_eq, h0]
    rw [orRaise_ok e0, done_andThen]
    cases h1 : (s.drawAt 1).result
    · have e1 : (busWrite 0x02#8 g.code (busWrite 0x01#8 g.steps s).2).1 = .ok := by
        simp [State.nextDraw_eq, h1]
      simp [orRaise_ok e1]
    · have e1 : (busWrite 0x02#8 g.code (busWrite 0x01#8 g.steps s).2).1 = .err := by
        simp [State.nextDraw_eq, h1]
      simp [orRaise_err e1]
  · have e0 : (busWrite 0x01#8 g.steps s).1 = .err := by simp [State.nextDraw_eq, h0]
    simp [orRaise_err e0]

/-! ### Requests in the states where they are legal -/

theorem execSetBrightness_eq {s : State} (hl : s.lifecycle = .attached) (t : BitVec 4) (v : Byte) (on off : Millis)
    {led : Led} (ht : targetLed s t = some led) :
    execSetBrightness t v on off s = .next ((setBrightnessBody t led v s).conclude 0#64 0#64 0#64 0#64) := by
  simp [execSetBrightness, mayUse, hl, ht]

theorem execSetBlink_eq {s : State} (hl : s.lifecycle = .attached) (t : BitVec 4) (on off : Millis)
    {led : Led} (ht : targetLed s t = some led) :
    execSetBlink t on off s = .next (setBlinkBody t led on off s) := by
  simp [execSetBlink, mayUse, hl, ht]

end Sys2Proof.Machine
end

