-- ==== Sys2Proof/Laws/Fields.lean ====
section
/-! SUPPORT. The fields of CHANNEL_CTRL under masked updates, and the members of a checked LED. -/

namespace Sys2Proof.Machine

open Sys2Proof

/-- `applies` says what R37 says. -/
theorem applies_iff (s : State) : s.applies = true ↔ s.effective := by
  unfold State.applies State.takesEffect State.effective
  rw [State.nextDraw_eq]
  by_cases h : s.psrcOn = true ∧ (s.drawAt 0).result = .ok <;> simp [h]

/-- The mask of one channel has no bit of another's field (R60). -/
theorem mask_other (c d : Nat) (hc : c < 4) (hd : d < 4) (h : c ≠ d) : (ctrlMask c).extractLsb' (2*d) 2 = 0#2 := by
  interval_cases c <;> interval_cases d <;> first | (exact absurd rfl h) | decide

theorem extract_or (a b : Byte) (i : Nat) : (a ||| b).extractLsb' i 2 = a.extractLsb' i 2 ||| b.extractLsb' i 2 := by
  ext k hk; simp [BitVec.getElem_extractLsb']

theorem extract_and (a b : Byte) (i : Nat) : (a &&& b).extractLsb' i 2 = a.extractLsb' i 2 &&& b.extractLsb' i 2 := by
  ext k hk; simp [BitVec.getElem_extractLsb']

/-- The mask of channels without `d` has no bit of field `d` (R76). -/
theorem groupMask_other (cs : List Nat) (d : Nat) (hc : ∀ c ∈ cs, c < 4) (hd : d < 4) (h : d ∉ cs) : (groupMask cs).extractLsb' (2*d) 2 = 0#2 := by
  induction cs with
  | nil => simp [groupMask]; 
  | cons c cs ih =>
    simp at h hc
    simp only [groupMask]
    rw [extract_or, mask_other c d hc.1 hd (Ne.symm h.1), ih hc.2 h.2]; rfl

/-- A masked update leaves a field outside its mask as it was (R38). -/
theorem update_field (r : RegVal) (m v : Byte) (d : Nat) (hm : m.extractLsb' (2*d) 2 = 0#2) (hd : d < 4) :
   (r.update m v).known.extractLsb' (2*d) 2 = r.known.extractLsb' (2*d) 2 ∧ (r.update m v).bits.extractLsb' (2*d) 2 = r.bits.extractLsb' (2*d) 2 := by
  simp only [RegVal.update]
  have hm' : ∀ k, k < 2 → m.getLsbD (2*d+k) = false := by
    intro k hk
    have := congrArg (fun x : BitVec 2 => x.getLsbD k) hm
    simpa [hk] using this
  constructor
  · ext k hk; simp [BitVec.getElem_extractLsb', hm' k hk]
  · ext k hk
    simp [BitVec.getElem_extractLsb', hm' k hk]; omega

/-- An UPDATE leaves a field of CHANNEL_CTRL outside its mask as it was, whether or not it takes effect (R37, R38). -/
theorem busUpdate_field (a m v : Byte) (s : State) (hwf : s.image.wf = true) (d : Nat) (hd : d < 4) (hm : m.extractLsb' (2*d) 2 = 0#2) :
    (busUpdate a m v s).2.ctrlField d = s.ctrlField d := by
  unfold State.ctrlField
  rw [busUpdate_reg _ _ _ hwf]
  split
  · obtain ⟨h1, h2⟩ := update_field (s.reg 4) m v d hm hd
    rw [h1, h2]
  · rfl

/-- A masked update with one channel's mask and data sets that channel's field (R74). -/
theorem update_self (r : RegVal) (c : Nat) (f : BitVec 2) (hc : c < 4) :
    (r.update (ctrlMask c) (ctrlData c f)).known.extractLsb' (2*c) 2 = 3#2 ∧ (r.update (ctrlMask c) (ctrlData c f)).bits.extractLsb' (2*c) 2 = f := by
  simp only [RegVal.update, extract_or, extract_and]
  have hm : (ctrlMask c).extractLsb' (2*c) 2 = 3#2 := by interval_cases c <;> decide
  have hd : (ctrlData c f).extractLsb' (2*c) 2 = f := by revert f; interval_cases c <;> decide
  have hn : (~~~ctrlMask c).extractLsb' (2*c) 2 = 0#2 := by interval_cases c <;> decide
  rw [hm, hd, hn]
  constructor
  · generalize (r.known.extractLsb' (2*c) 2) = x; revert x; decide
  · generalize (r.bits.extractLsb' (2*c) 2) = x; clear hd; revert x f; decide

/-- A masked update with a group's mask and data sets each member's field (R76). -/
theorem groupField (cs : List Nat) (f : BitVec 2) (r : RegVal) (c : Nat) (hc : c ∈ cs) (h4 : ∀ c ∈ cs, c < 4) :
    (r.update (groupMask cs) (groupData f cs)).known.extractLsb' (2*c) 2 = 3#2 ∧ (r.update (groupMask cs) (groupData f cs)).bits.extractLsb' (2*c) 2 = f := by
  have hc4 := h4 c hc
  have hm : (groupMask cs).extractLsb' (2*c) 2 = 3#2 := by
    clear r
    induction cs with
    | nil => simp at hc
    | cons d ds ih =>
      simp only [groupMask, extract_or]
      rcases List.mem_cons.1 hc with rfl | hc
      · have : (ctrlMask c).extractLsb' (2*c) 2 = 3#2 := by interval_cases c <;> decide
        rw [this]; generalize (groupMask ds).extractLsb' (2*c) 2 = x; revert x; decide
      · rw [ih hc (fun x hx => h4 x (by simp [hx]))]; generalize (ctrlMask d).extractLsb' (2*c) 2 = x; revert x; decide
  have other : ∀ d, d < 4 → d ≠ c → (ctrlData d f).extractLsb' (2*c) 2 = 0#2 := by
    intro d hd hne
    clear hm hc h4 r
    revert f
    interval_cases c <;> interval_cases d <;> first | (exact absurd rfl hne) | decide
  have self : (ctrlData c f).extractLsb' (2*c) 2 = f := by clear hm other hc h4; revert f; interval_cases c <;> decide
  have none' : ∀ ds : List Nat, (∀ c ∈ ds, c < 4) → c ∉ ds → (groupData f ds).extractLsb' (2*c) 2 = 0#2 := by
    intro ds
    induction ds with
    | nil => intros; simp [groupData]
    | cons d ds ih =>
      intro h hn
      simp at hn
      simp only [groupData, extract_or]
      rw [other d (h d (by simp)) (by omega), ih (fun x hx => h x (by simp [hx])) hn.2]; rfl
  have hd : (groupData f cs).extractLsb' (2*c) 2 = f := by
    clear hm r
    induction cs with
    | nil => simp at hc
    | cons d ds ih =>
      simp only [groupData, extract_or]
      by_cases hin : c ∈ ds
      · rw [ih hin (fun x hx => h4 x (by simp [hx]))]
        by_cases e : d = c
        · subst e; rw [self]; simp
        · rw [other d (h4 d (by simp)) e]; simp
      · rw [none' ds (fun x hx => h4 x (by simp [hx])) hin]
        rcases List.mem_cons.1 hc with rfl | hc
        · rw [self]; simp
        · exact absurd hc hin
  simp only [RegVal.update, extract_or, extract_and, hm, hd]
  have hn : (~~~groupMask cs).extractLsb' (2*c) 2 = 0#2 := by
    have : (~~~groupMask cs).extractLsb' (2*c) 2 = ~~~((groupMask cs).extractLsb' (2*c) 2) := by
      ext k hk; simp [BitVec.getElem_extractLsb']; omega
    rw [this, hm]; rfl
  rw [hn]
  constructor
  · generalize (r.known.extractLsb' (2*c) 2) = x; revert x; decide
  · generalize (r.bits.extractLsb' (2*c) 2) = x; clear hd self other none'; revert x f; decide

/-- The mode of a channel by its field and which of its bits hold a value. -/
theorem channelMode_eq (s : State) (c : Nat) : s.channelMode c = if (s.ctrlField c).1 = 3#2 then some (s.ctrlField c).2 else none := rfl

/-- The address of an output-current register (R30). -/
theorem iledAddr_toNat {c : Nat} (h : c < 4) : (iledAddr c).toNat = 6 + c := by simp [iledAddr]; omega

/-- The channels LED_WRITE drives are the LED's members. -/
theorem ledOutputs_fst (v : Byte) (led : Led) : (ledOutputs v led).map Prod.fst = ledMembers led := by
  cases led <;> simp [ledOutputs, ledMembers]

/-- What CFG_VALID says of one logical LED (R94). -/
theorem cfgValid_led {p : Params} (h : cfgValid p = true) {led : Led} (hl : led ∈ p.leds) :
   (ledMembers led).Nodup ∧ (∀ c ∈ ledMembers led, c < 4 ∧ 6 + c < regCount p ∧ c < p.channelCount) ∧ p.channelCount ≤ 4 ∧ regCount p = 6 + p.channelCount := by
  simp [cfgValid] at h
  obtain ⟨⟨⟨hcc, hall⟩, hnd⟩, _⟩ := h
  have hn : p.channelCount ≤ 4 := by omega
  have hr : regCount p = 6 + p.channelCount := by unfold regCount; omega
  refine ⟨?_, ?_, hn, hr⟩
  · obtain ⟨l1, l2, e⟩ := List.append_of_mem hl
    rw [e] at hnd
    simp [namedChannels, List.nodup_append] at hnd
    exact hnd.2.1.1
  · intro c hc
    have := hall led hl
    cases led with
    | single d => simp [ledMembers] at hc; simp [ledValid] at this; omega
    | group ms =>
      simp [ledMembers] at hc
      obtain ⟨m, hm, rfl⟩ := hc
      simp [ledValid] at this
      have := this.2 m hm
      omega

/-- A target is one of the configured LEDs. -/
theorem targetLed_mem {s : State} {t : BitVec 4} {led : Led} (h : targetLed s t = some led) : led ∈ s.config.leds :=
  List.mem_of_getElem? h

end Sys2Proof.Machine
end

