-- ==== Sys2Proof/Laws/Power.lean ====
section
/-! SUPPORT. The power gating: when its power calls are answered OK, and what its wake and sleep leave. -/

namespace Sys2Proof.Machine

open Sys2Proof

/-- What ENSURE_ENABLED leaves of a disabled chip when both answers are OK (R68). -/
def State.woken (s : State) : State := (busWrite 0x00#8 0x00#8 (powerEnable s).2).2.setEnabled true

/-- What ENSURE_DISABLED leaves of an enabled chip when the disable is answered OK (R69). -/
def State.slept (s : State) : State := (powerDisable (busWrite 0x00#8 0x08#8 s).2).2.setEnabled false

theorem State.okFor_mono {s : State} {n m : Nat} (h : s.okFor n) (hm : m ≤ n) : s.okFor m := fun k hk => h k (by omega)
theorem State.okFor_shift {s t : State} {n j : Nat} (h : s.okFor n) (hd : ∀ k, t.drawAt k = s.drawAt (k + j)) : t.okFor (n - j) :=
  fun k hk => by rw [hd]; exact h _ (by omega)

@[simp] theorem drawAt_setEnabled (s : State) (b k) : (s.setEnabled b).drawAt k = s.drawAt k := rfl
@[simp] theorem drawAt_setLedBright (s : State) (b k) : (s.setLedBright b).drawAt k = s.drawAt k := rfl
@[simp] theorem drawAt_setChBright (s : State) (b k) : (s.setChBright b).drawAt k = s.drawAt k := rfl
@[simp] theorem drawAt_respond (s : State) (b k) : (s.respond b).drawAt k = s.drawAt k := rfl
@[simp] theorem reg_setEnabled (s : State) (b k) : (s.setEnabled b).reg k = s.reg k := rfl
@[simp] theorem reg_setLedBright (s : State) (b k) : (s.setLedBright b).reg k = s.reg k := rfl
@[simp] theorem reg_setChBright (s : State) (b k) : (s.setChBright b).reg k = s.reg k := rfl
@[simp] theorem reg_respond (s : State) (b k) : (s.respond b).reg k = s.reg k := rfl

/-- ENSURE_ENABLED when both answers are OK (R68). -/
theorem ensureEnabled_ok {s : State} (h : s.okFor 2) : ensureEnabled s = done (if s.enabled then s else s.woken) := by
  rcases ensureEnabled_cases s with ⟨he, h'⟩ | ⟨he, h0, h'⟩ | ⟨he, h0, h1, h'⟩ | ⟨he, h0, h1, h'⟩
  · simp [h', he]
  · rw [h 0 (by omega)] at h0; cases h0
  · simp [h', he, State.woken]
  · rw [h 1 (by omega)] at h1; cases h1

/-- ENSURE_DISABLED when both answers are OK (R69). -/
theorem ensureDisabled_ok {s : State} (h : s.okFor 2) : ensureDisabled s = if s.enabled then s.slept else s := by
  rcases ensureDisabled_cases s with ⟨he, h'⟩ | ⟨he, h0, h'⟩ | ⟨he, h0, h'⟩
  · simp [h', he]
  · simp [h', he, State.slept]
  · rw [h 1 (by omega)] at h0; cases h0

section
variable (s : State)
@[simp] theorem woken_config : s.woken.config = s.config := by simp [State.woken]
@[simp] theorem woken_lifecycle : s.woken.lifecycle = s.lifecycle := by simp [State.woken]
@[simp] theorem woken_enabled : s.woken.enabled = true := by simp [State.woken]
@[simp] theorem woken_ledBright : s.woken.ledBright = s.ledBright := by simp [State.woken]
@[simp] theorem woken_chBright : s.woken.chBright = s.chBright := by simp [State.woken]
@[simp] theorem woken_responses : s.woken.responses = s.responses := by simp [State.woken]
@[simp] theorem woken_pending : s.woken.pending = s.pending := by simp [State.woken]
@[simp] theorem woken_drawAt (k) : s.woken.drawAt k = s.drawAt (k + 2) := by simp [State.woken]
@[simp] theorem woken_drawn : s.woken.drawn = s.drawn + 2 := by simp [State.woken]
@[simp] theorem slept_config : s.slept.config = s.config := by simp [State.slept]
@[simp] theorem slept_lifecycle : s.slept.lifecycle = s.lifecycle := by simp [State.slept]
@[simp] theorem slept_enabled : s.slept.enabled = false := by simp [State.slept]
@[simp] theorem slept_ledBright : s.slept.ledBright = s.ledBright := by simp [State.slept]
@[simp] theorem slept_chBright : s.slept.chBright = s.chBright := by simp [State.slept]
@[simp] theorem slept_responses : s.slept.responses = s.responses := by simp [State.slept]
@[simp] theorem slept_pending : s.slept.pending = s.pending := by simp [State.slept]
@[simp] theorem slept_drawAt (k) : s.slept.drawAt k = s.drawAt (k + 2) := by simp [State.slept]

end

theorem woken_trace {s : State} (h : s.okFor 2) : s.woken.trace = s.trace ++ wakeEvents := by
  simp [State.woken, State.nextDraw_eq, h 0, h 1, wakeEvents]
theorem woken_psrcOn {s : State} (h : s.okFor 2) : s.woken.psrcOn = true := by
  simp [State.woken, State.nextDraw_eq, h 0]
theorem slept_trace {s : State} (h : s.okFor 2) : s.slept.trace = s.trace ++ sleepEvents := by
  simp [State.slept, State.nextDraw_eq, h 0, h 1, sleepEvents]
theorem slept_psrcOn {s : State} (h : s.okFor 2) : s.slept.psrcOn = false := by
  simp [State.slept, State.nextDraw_eq, h 1]
theorem woken_applies {s : State} (h : s.okFor 2) : (powerEnable s).2.applies = true := by
  apply State.applies_of_ok <;> simp [State.nextDraw_eq, h 0, h 1]
theorem woken_chipMode {s : State} (h : s.okFor 2) : s.woken.chipMode = .awake := by
  simp [State.woken, woken_applies h, modeAfterWrite]
theorem woken_wf {s : State} (h : s.image.wf = true) : s.woken.image.wf = true := by
  unfold State.woken; rw [State.setEnabled_image]; apply busWrite_wf; simpa using h
theorem woken_reg {s : State} (h : s.okFor 2) (hwf : s.image.wf = true) (a : Nat) :
    s.woken.reg a = if a = 0 then RegVal.full 0x00#8 else s.reg a := by
  unfold State.woken
  have h6 := six_le_regCount s.config
  rw [reg_setEnabled, busWrite_reg _ _ (by simpa using hwf), if_pos (woken_applies h), if_neg (by decide)]
  by_cases ha : a = 0 <;> simp [ha]; omega

/-- GATED when every answer is OK. -/
theorem gated_ok (bOld bNew : List Byte) (body : State → Micro) (s : State) (n : Nat) (h : s.okFor (n + 4))
    (hb : ∀ t : State, t.config = s.config → t.okFor n → (body t).raised = none ∧ (body t).state.enabled = t.enabled ∧
      (body t).state.config = t.config ∧ ∀ k, (body t).state.drawAt k = t.drawAt (k + n)) :
    let up := if !s.enabled && (anyActive s.config.ledCount bNew || anyActive s.config.ledCount bOld) then s.woken else s
    gated bOld bNew body s = done (if up.enabled && !anyActive s.config.ledCount bNew then (body up).state.slept else (body up).state) := by
  intro up
  have hu : (if anyActive s.config.ledCount bNew || anyActive s.config.ledCount bOld then ensureEnabled s
        else done s) = done up := by
    rw [ensureEnabled_ok (State.okFor_mono h (by omega))]
    simp only [up]
    cases s.enabled <;> cases anyActive s.config.ledCount bNew <;> cases anyActive s.config.ledCount bOld <;> rfl
  have hup : up.config = s.config ∧ (up.okFor (n + 2)) := by
    simp only [up]; split
    · exact ⟨by simp, fun k hk => by rw [woken_drawAt]; exact h _ (by omega)⟩
    · exact ⟨rfl, State.okFor_mono h (by omega)⟩
  obtain ⟨b1, b2, b3, b4⟩ := hb up hup.1 (State.okFor_mono hup.2 (by omega))
  have hs : (body up).state.okFor 2 := fun k hk => by rw [b4]; exact hup.2 _ (by omega)
  obtain ⟨u, hu', hg⟩ := gated_cases bOld bNew body s
  rw [hu] at hu'; subst hu'
  rcases hg with ⟨e, h1, _⟩ | ⟨_, e, h1, _⟩ | ⟨_, _, h1⟩
  · cases h1
  · rw [done_state, b1] at h1; cases h1
  · rw [h1, done_state, ensureDisabled_ok hs, b2]
    cases up.enabled <;> cases anyActive s.config.ledCount bNew <;> simp


/-- GATED on an enabled chip: the body, then ENSURE_DISABLED if no LED is active (R79). -/
theorem gated_enabled {s : State} (he : s.enabled = true) (bOld bNew : List Byte) (body : State → Micro) :
    gated bOld bNew body s = (body s).andThen fun t => done (if anyActive s.config.ledCount bNew then t else ensureDisabled t) := by
  unfold gated
  have : (if (anyActive s.config.ledCount bNew || anyActive s.config.ledCount bOld) then ensureEnabled s else done s) = done s := by
    split <;> simp [ensureEnabled, he]
  dsimp only
  rw [this, done_andThen]

/-- The state in which the body of a request starts: after the wake, where there is one (R68, R79). -/
def State.poweredUp (s : State) (wake : Bool) : State := if wake then s.woken else s

section
variable (s : State) (w : Bool)
@[simp] theorem poweredUp_config : (s.poweredUp w).config = s.config := by cases w <;> simp [State.poweredUp]
@[simp] theorem poweredUp_lifecycle : (s.poweredUp w).lifecycle = s.lifecycle := by cases w <;> simp [State.poweredUp]
@[simp] theorem poweredUp_enabled : (s.poweredUp w).enabled = (s.enabled || w) := by cases w <;> simp [State.poweredUp]
@[simp] theorem poweredUp_ledBright : (s.poweredUp w).ledBright = s.ledBright := by cases w <;> simp [State.poweredUp]
@[simp] theorem poweredUp_chBright : (s.poweredUp w).chBright = s.chBright := by cases w <;> simp [State.poweredUp]
@[simp] theorem poweredUp_responses : (s.poweredUp w).responses = s.responses := by cases w <;> simp [State.poweredUp]
@[simp] theorem poweredUp_pending : (s.poweredUp w).pending = s.pending := by cases w <;> simp [State.poweredUp]
@[simp] theorem poweredUp_drawAt (k : Nat) : (s.poweredUp w).drawAt k = s.drawAt (k + if w then 2 else 0) := by
  cases w <;> simp [State.poweredUp]
end

/-- What such a start holds, when the two answers of a wake are OK: nothing but RESET_CTRL has changed. -/
theorem poweredUp_facts {s : State} {w : Bool} (h : s.okFor (if w then 2 else 0)) (hp : w = false → s.psrcOn = true)
    (hwf : s.image.wf = true) :
    (s.poweredUp w).psrcOn = true ∧ (s.poweredUp w).image.wf = true ∧
    (s.poweredUp w).trace = s.trace ++ (if w then wakeEvents else []) ∧
    (s.poweredUp w).chipMode = (if w then .awake else s.chipMode) ∧
    ∀ a, (s.poweredUp w).reg a = if w = true ∧ a = 0 then RegVal.full 0x00#8 else s.reg a := by
  cases w
  · simp [State.poweredUp, hp rfl, hwf]
  · refine ⟨woken_psrcOn h, woken_wf hwf, woken_trace h, woken_chipMode h, fun a => ?_⟩
    rw [State.poweredUp, if_pos rfl, woken_reg h hwf]; simp

/-- GATED when a wake, if there is one, succeeds: the body on the powered chip, then ENSURE_DISABLED if no LED is active (R79). -/
theorem gated_runs (bOld bNew : List Byte) (body : State → Micro) (s : State)
    (h : s.okFor (if !s.enabled && (anyActive s.config.ledCount bNew || anyActive s.config.ledCount bOld) then 2 else 0)) :
    gated bOld bNew body s =
      (body (s.poweredUp (!s.enabled && (anyActive s.config.ledCount bNew || anyActive s.config.ledCount bOld)))).andThen
        fun t => done (if anyActive s.config.ledCount bNew then t else ensureDisabled t) := by
  cases he : s.enabled
  · unfold gated
    cases ha : (anyActive s.config.ledCount bNew || anyActive s.config.ledCount bOld)
    · simp [State.poweredUp, ha]
    · rw [he, ha] at h
      simp [State.poweredUp, ha, ensureEnabled_ok h, he]
  · rw [gated_enabled he]; simp [State.poweredUp]

/-- What ENSURE_DISABLED leaves of a powered chip's registers when its two answers are OK (R41, R69). -/
theorem slept_reg {s : State} (h : s.okFor 2) (hp : s.psrcOn = true) (hwf : s.image.wf = true) (a : Nat) :
    s.slept.reg a = if s.config.retainOnPowerOff then (if a = 0 then RegVal.full 0x08#8 else s.reg a) else RegVal.noValue := by
  have h6 := six_le_regCount s.config
  have ha : s.applies = true := State.applies_of_ok hp (by rw [State.nextDraw_eq]; exact h 0 (by omega))
  have hi : s.slept.image = imageAfterPowerOff s.config (busWrite 0x00#8 0x08#8 s).2.image := by
    simp [State.slept, State.nextDraw_eq, h 1]
  unfold State.reg
  rw [hi, imageAfterPowerOff]
  cases s.config.retainOnPowerOff
  · simp [RegImage.read, RegImage.empty, RegVal.noValue, Memory.read, Memory.unlisted]
  · have := busWrite_reg 0x00#8 0x08#8 hwf a
    rw [if_pos ha, if_neg (by decide)] at this
    unfold State.reg at this
    simp only [if_true, this]
    by_cases h0 : a = 0 <;> simp [h0]; omega

theorem slept_chipMode {s : State} (h : s.okFor 2) : s.slept.chipMode = .unset := by
  simp [State.slept, State.nextDraw_eq, h 1]

end Sys2Proof.Machine
end

