-- ==== Sys2Proof/Laws/Writes.lean ====
section
/-! SUPPORT. The channel writes of a request, whatever is answered: which registers and fields hold the new values, and what
the first failing answer leaves. -/

namespace Sys2Proof.Machine

open Sys2Proof

/-- A bus transaction issued at the `k`-th answer from here takes effect, the power source staying as it is (R37, D19, D20). -/
def State.landsAt (s : State) (k : Nat) : Bool := (s.psrcOn && (s.drawAt k).result == .ok) || (s.drawAt k).applied

/-- `applies` is `landsAt` for the next transaction. -/
theorem applies_eq_landsAt (s : State) : s.applies = s.landsAt 0 := by
  simp only [State.applies, State.takesEffect, State.landsAt, State.nextDraw_eq]
  cases s.psrcOn <;> cases (s.drawAt 0).result <;> simp

@[simp] theorem busWrite_landsAt (a v : Byte) (s : State) (k : Nat) :
    (busWrite a v s).2.landsAt k = s.landsAt (k + 1) := by simp [State.landsAt]
@[simp] theorem busUpdate_landsAt (a m v : Byte) (s : State) (k : Nat) :
    (busUpdate a m v s).2.landsAt k = s.landsAt (k + 1) := by simp [State.landsAt]
@[simp] theorem channelStart_landsAt (c : Nat) (b : Byte) (s : State) (k : Nat) :
    (channelStart c b s).landsAt k = s.landsAt k := rfl

/-- Every transaction answered OK lands on a powered chip (R37). -/
theorem landsAt_of_ok {s : State} {k : Nat} (hp : s.psrcOn = true) (h : (s.drawAt k).result = .ok) : s.landsAt k = true := by
  simp [State.landsAt, hp, h]

/-- SET_CHANNEL takes one answer, or two when the first is OK (R77). -/
theorem setChannel_draws (c : Nat) (b : Byte) (s : State) :
    ((setChannel c b s).raised = none ↔ s.okFor 2) ∧
    (s.okFor 2 → ∀ k, (setChannel c b s).state.drawAt k = s.drawAt (k + 2)) := by
  refine ⟨?_, fun h k => setChannel_ok_drawAt c b h k⟩
  constructor
  · intro h k hk
    rcases setChannel_cases c b s with ⟨_, e⟩ | ⟨h0, e⟩ <;> rw [e] at h
    · simp at h
    · have h1 : (s.drawAt 1).result = .ok := by
        simpa [ctrlSet, orRaise_raised, State.nextDraw_eq] using h
      have : k = 0 ∨ k = 1 := by omega
      rcases this with rfl | rfl <;> assumption
  · intro h; rw [setChannel_ok c b h]; rfl

/-- The registers after one SET_CHANNEL, whatever is answered (R77, R99). -/
theorem setChannel_reg (c : Nat) (b : Byte) {s : State} (hwf : s.image.wf = true) (hc : c < 4)
    (hr : 6 + c < regCount s.config) (a : Nat) :
    (setChannel c b s).state.reg a =
      if a = 6 + c ∧ s.landsAt 0 = true then RegVal.full (iledCode b)
      else if a = 4 ∧ (s.drawAt 0).result = .ok ∧ s.landsAt 1 = true then
        (s.reg 4).update (ctrlMask c) (ctrlData c (modeFor b))
      else s.reg a := by
  have hwf' : (channelStart c b s).image.wf = true := hwf
  have hcfg : (channelStart c b s).config = s.config := rfl
  have hrs : ∀ x, (channelStart c b s).reg x = s.reg x := fun _ => rfl
  have hne : ¬ (iledAddr c = 0#8 ∧ iledCode b = 7#8) := by
    intro h; have := congrArg BitVec.toNat h.1; rw [iledAddr_toNat hc] at this; simp at this
  have h6 := six_le_regCount s.config
  have e4 : (4#8 : Byte).toNat = 4 := rfl
  have r1 : ∀ x, (busWrite (iledAddr c) (iledCode b) (channelStart c b s)).2.reg x =
      if x = 6 + c ∧ s.landsAt 0 = true then RegVal.full (iledCode b) else s.reg x := by
    intro x
    rw [busWrite_reg _ _ hwf', if_neg hne, applies_eq_landsAt, iledAddr_toNat hc]
    simp only [channelStart_landsAt, hcfg, hr, true_and, hrs]
    by_cases h : s.landsAt 0 = true <;> simp [h]
  rcases setChannel_cases c b s with ⟨h0, e⟩ | ⟨h0, e⟩ <;> rw [e]
  · rw [raise_state, r1]; simp [h0]
  · rw [ctrlSet_state, busUpdate_reg _ _ _ (busWrite_wf _ _ hwf'), applies_eq_landsAt, r1]
    simp only [busWrite_landsAt, channelStart_landsAt, busWrite_config, hcfg, e4, show 4 < regCount s.config by omega, h0]
    by_cases ha : a = 4
    · subst ha; simp [show ¬ (4 = 6 + c) by omega]
    · simp [ha]

/-- What a list of SET_CHANNELs leaves in the registers, whatever is answered (R77, R78, R99): the transaction at answer `j` is issued
when all before it were OK, and takes effect when it lands. -/
theorem writeChannels_regs : ∀ (ps : List (Nat × Byte)) {s : State}, s.image.wf = true →
    (∀ x ∈ ps, x.1 < 4 ∧ 6 + x.1 < regCount s.config) → (ps.map Prod.fst).Nodup →
    let u := (writeChannels ps s).state
    (∀ j x, ps[j]? = some x →
      (s.okFor (2 * j) ∧ s.landsAt (2 * j) = true → u.reg (6 + x.1) = RegVal.full (iledCode x.2)) ∧
      (¬(s.okFor (2 * j) ∧ s.landsAt (2 * j) = true) → u.reg (6 + x.1) = s.reg (6 + x.1)) ∧
      (s.okFor (2 * j + 1) ∧ s.landsAt (2 * j + 1) = true → u.channelMode x.1 = some (modeFor x.2)) ∧
      (¬(s.okFor (2 * j + 1) ∧ s.landsAt (2 * j + 1) = true) → u.ctrlField x.1 = s.ctrlField x.1)) ∧
    (∀ d, d < 4 → d ∉ ps.map Prod.fst → u.ctrlField d = s.ctrlField d) ∧
    (∀ a, a ≠ 4 → (∀ c ∈ ps.map Prod.fst, a ≠ 6 + c) → u.reg a = s.reg a)
  | [], s, _, _, _ => by simp [writeChannels_nil]
  | (c, b) :: rest, s, hwf, hr, hn => by
    intro u
    obtain ⟨hc4, hcr⟩ := hr (c, b) (by simp)
    simp only [List.map_cons, List.nodup_cons] at hn
    have hreg := setChannel_reg c b hwf hc4 hcr
    have hf : ∀ d, d < 4 → d ≠ c → (setChannel c b s).state.ctrlField d = s.ctrlField d := by
      intro d hd4 hdc
      unfold State.ctrlField
      rw [hreg, if_neg (by omega)]
      split
      · obtain ⟨e1, e2⟩ := update_field (s.reg 4) (ctrlMask c) (ctrlData c (modeFor b)) d
          (mask_other c d hc4 hd4 (Ne.symm hdc)) hd4
        rw [e1, e2]
      · rfl
    have hsplit : s.okFor (2 * 0 + 1) ↔ (s.drawAt 0).result = .ok :=
      ⟨fun h => h 0 (by omega), fun h k hk => by have : k = 0 := by omega
                                                 subst this; exact h⟩
    -- the first channel, right after its own SET_CHANNEL
    have hc1 : (s.okFor (2 * 0) ∧ s.landsAt (2 * 0) = true →
          (setChannel c b s).state.reg (6 + c) = RegVal.full (iledCode b)) ∧
        (¬(s.okFor (2 * 0) ∧ s.landsAt (2 * 0) = true) → (setChannel c b s).state.reg (6 + c) = s.reg (6 + c)) ∧
        (s.okFor (2 * 0 + 1) ∧ s.landsAt (2 * 0 + 1) = true →
          (setChannel c b s).state.channelMode c = some (modeFor b)) ∧
        (¬(s.okFor (2 * 0 + 1) ∧ s.landsAt (2 * 0 + 1) = true) →
          (setChannel c b s).state.ctrlField c = s.ctrlField c) := by
      refine ⟨fun h => ?_, fun h => ?_, fun h => ?_, fun h => ?_⟩
      · rw [hreg, if_pos ⟨rfl, h.2⟩]
      · rw [hreg, if_neg (fun h' => h ⟨fun k hk => absurd hk (by omega), h'.2⟩), if_neg (by omega)]
      · have e4 : (setChannel c b s).state.reg 4 = (s.reg 4).update (ctrlMask c) (ctrlData c (modeFor b)) := by
          rw [hreg, if_neg (by omega), if_pos ⟨rfl, hsplit.1 h.1, h.2⟩]
        obtain ⟨e1, e2⟩ := update_self (s.reg 4) c (modeFor b) hc4
        unfold State.channelMode
        rw [e4]; simp only [e1, e2]; rfl
      · unfold State.ctrlField
        rw [hreg, if_neg (by omega), if_neg (fun h' => h ⟨hsplit.2 h'.2.1, h'.2.2⟩)]
    rcases Micro.andThen_cases (setChannel c b s) (writeChannels rest) with ⟨hnone, e⟩ | ⟨err, hsome, e⟩
    · have h2 := (setChannel_draws c b s).1.1 hnone
      have hd := (setChannel_draws c b s).2 h2
      have hokrest : ∀ n, (setChannel c b s).state.okFor n ↔ s.okFor (n + 2) := by
        intro n
        constructor
        · intro h k hk
          by_cases hk2 : k < 2
          · exact h2 k hk2
          · have := h (k - 2) (by omega)
            rwa [hd, show k - 2 + 2 = k by omega] at this
        · intro h k hk; rw [hd]; exact h _ (by omega)
      have hland : ∀ k, (setChannel c b s).state.landsAt k = s.landsAt (k + 2) := by
        intro k; simp [State.landsAt, hd]
      have hu : u = (writeChannels rest (setChannel c b s).state).state := by
        simp only [u, writeChannels_cons, e]
      obtain ⟨i1, i2, i3⟩ := writeChannels_regs rest (setChannel_wf c b hwf)
        (fun x hx => by simpa using hr x (by simp [hx])) hn.2
      rw [← hu] at i1 i2 i3
      have hcu : u.reg (6 + c) = (setChannel c b s).state.reg (6 + c) :=
        i3 _ (by omega) (by intro c' hc' h; have : c = c' := by simpa using h
                            exact hn.1 (this ▸ hc'))
      refine ⟨?_, ?_, ?_⟩
      · intro j x hx
        cases j with
        | zero =>
          have hx' : (c, b) = x := by simpa using hx
          subst hx'
          rw [hcu, channelMode_eq, i2 c hc4 hn.1, ← channelMode_eq]
          exact hc1
        | succ j =>
          have hx' : rest[j]? = some x := by simpa using hx
          have hmem : x.1 ∈ rest.map Prod.fst := List.mem_map_of_mem (List.mem_of_getElem? hx')
          have hxc : x.1 ≠ c := fun h => hn.1 (h ▸ hmem)
          have hx4 := (hr x (by simp [List.mem_of_getElem? hx'])).1
          have := i1 j x hx'
          simp only [hokrest, hland] at this
          rw [hreg, if_neg (by omega), if_neg (by omega), hf _ hx4 hxc] at this
          exact this
      · intro d hd4 hdn
        simp only [List.map_cons, List.mem_cons, not_or] at hdn
        rw [i2 d hd4 hdn.2, hf d hd4 hdn.1]
      · intro a ha hc
        rw [i3 a ha (fun c' hc' => hc c' (by simp at hc' ⊢; exact Or.inr hc')), hreg,
          if_neg (fun h => hc c (by simp) h.1), if_neg (fun h => ha h.1)]
    · have hu : u = (setChannel c b s).state := by simp only [u, writeChannels_cons, e]
      have hno : ¬ s.okFor 2 := fun h => by
        rw [(setChannel_draws c b s).1.2 h] at hsome; cases hsome
      refine ⟨?_, ?_, ?_⟩
      · intro j x hx
        cases j with
        | zero =>
          have hx' : (c, b) = x := by simpa using hx
          subst hx'
          rw [hu]; exact hc1
        | succ j =>
          have hx' : rest[j]? = some x := by simpa using hx
          have hmem : x.1 ∈ rest.map Prod.fst := List.mem_map_of_mem (List.mem_of_getElem? hx')
          have hxc : x.1 ≠ c := fun h => hn.1 (h ▸ hmem)
          have hx4 := (hr x (by simp [List.mem_of_getElem? hx'])).1
          refine ⟨fun h => absurd (State.okFor_mono h.1 (by omega)) hno, fun _ => ?_,
            fun h => absurd (State.okFor_mono h.1 (by omega)) hno, fun _ => ?_⟩
          · rw [hu, hreg, if_neg (by omega), if_neg (by omega)]
          · rw [hu, hf _ hx4 hxc]
      · intro d hd4 hdn
        simp only [List.map_cons, List.mem_cons, not_or] at hdn
        rw [hu, hf d hd4 hdn.1]
      · intro a ha hc
        rw [hu, hreg, if_neg (fun h => hc c (by simp) h.1), if_neg (fun h => ha h.1)]

/-- The same with every answer OK on a powered chip: each member's code and mode (R77, R78). -/
theorem writeChannels_ok_regs (ps : List (Nat × Byte)) {s : State} (h : s.okFor (2 * ps.length)) (hp : s.psrcOn = true)
    (hwf : s.image.wf = true) (hr : ∀ x ∈ ps, x.1 < 4 ∧ 6 + x.1 < regCount s.config) (hn : (ps.map Prod.fst).Nodup) :
    ∀ x ∈ ps, (writeChannels ps s).state.reg (6 + x.1) = RegVal.full (iledCode x.2) ∧
      (writeChannels ps s).state.channelMode x.1 = some (modeFor x.2) := by
  intro x hx
  obtain ⟨j, hj, hxj⟩ := List.getElem_of_mem hx
  obtain ⟨w1, _, w2, _⟩ := (writeChannels_regs ps hwf hr hn).1 j x (by rw [List.getElem?_eq_getElem hj, hxj])
  have : j < ps.length := hj
  exact ⟨w1 ⟨State.okFor_mono h (by omega), landsAt_of_ok hp (h _ (by omega))⟩,
    w2 ⟨State.okFor_mono h (by omega), landsAt_of_ok hp (h _ (by omega))⟩⟩

/-- The first answer ERR, at the `k`-th transaction, ends the loop (R78, R99): the later ones are not issued, and only the channels
that were reached have their stored brightness. -/
theorem writeChannels_err : ∀ (ps : List (Nat × Byte)) {s : State} (k : Nat), k < 2 * ps.length → s.okFor k →
    (s.drawAt k).result = .err →
    (writeChannels ps s).raised = some .bus ∧
    (writeChannels ps s).state.trace = s.trace ++ cutAt (ps.flatMap fun x => channelEvents x.1 x.2) k ∧
    (writeChannels ps s).state.chBright = (ps.take (k / 2 + 1)).foldl (fun b x => b.set x.1 x.2) s.chBright
  | [], s, k, hk, _, _ => by simp at hk
  | (c, b) :: rest, s, k, hk, hok, herr => by
    rw [writeChannels_cons]
    by_cases h2 : k < 2
    · have hraise : (setChannel c b s).raised = some .bus ∧
          (setChannel c b s).state.trace = s.trace ++ cutAt (channelEvents c b) k := by
        have : k = 0 ∨ k = 1 := by omega
        rcases this with rfl | rfl
        · rcases setChannel_cases c b s with ⟨h0, e⟩ | ⟨h0, _⟩
          · rw [e]
            simp [State.nextDraw_eq, h0, cutAt, channelEvents, Event.failed]; rfl
          · rw [herr] at h0; cases h0
        · rcases setChannel_cases c b s with ⟨h0, _⟩ | ⟨h0, e⟩
          · rw [hok 0 (by omega)] at h0; cases h0
          · rw [e]
            simp [ctrlSet, orRaise_raised, State.nextDraw_eq, h0, herr, cutAt, channelEvents, Event.failed]; rfl
      have e : (setChannel c b s).andThen (writeChannels rest) = setChannel c b s := by
        unfold Micro.andThen; rw [hraise.1]
      rw [e]
      refine ⟨hraise.1, ?_, ?_⟩
      · rw [hraise.2]
        have : k = 0 ∨ k = 1 := by omega
        rcases this with rfl | rfl <;> simp [cutAt, channelEvents]
      · have : k / 2 = 0 := by omega
        simp [this]
    · obtain ⟨k, rfl⟩ : ∃ j, k = j + 2 := ⟨k - 2, by omega⟩
      have hok2 : s.okFor 2 := State.okFor_mono hok (by omega)
      have hd := setChannel_ok_drawAt c b hok2
      have hnone : (setChannel c b s).raised = none := (setChannel_draws c b s).1.2 hok2
      have e : (setChannel c b s).andThen (writeChannels rest) = writeChannels rest (setChannel c b s).state := by
        unfold Micro.andThen; rw [hnone]
      obtain ⟨i1, i2, i3⟩ := writeChannels_err rest (s := (setChannel c b s).state) k
        (by simp at hk; omega) (fun j hj => by rw [hd]; exact hok _ (by omega)) (by rw [hd]; exact herr)
      rw [e]
      refine ⟨i1, ?_, ?_⟩
      · rw [i2, setChannel_ok_trace c b hok2]
        simp [cutAt, channelEvents, List.take_succ_cons]
      · rw [i3, setChannel_chBright, show (k + 2) / 2 + 1 = k / 2 + 1 + 1 by omega]
        simp

/-- SET_CHANNELs leave the chip's power state alone. -/
theorem writeChannels_chipMode (ps : List (Nat × Byte)) (s : State) (h : ∀ x ∈ ps, x.1 < 250) : (writeChannels ps s).state.chipMode = s.chipMode := by
  refine writeChannels_keeps (fun u => u.chipMode = s.chipMode) (fun x hx u hu => ?_) rfl
  have hne : iledAddr x.1 ≠ 0#8 := by
    have := h x hx
    intro h; have := congrArg BitVec.toNat h; simp [iledAddr] at this; omega
  rcases setChannel_cases x.1 x.2 u with ⟨_, h⟩ | ⟨_, h⟩ <;> rw [h] <;> simp [modeAfterWrite, hne, channelStart, hu]

/-- SET_BLINK's general writes leave the chip's power state alone. -/
theorem blinkWrites_chipMode (cs : List Nat) (g : Timing) (s : State) : (blinkWrites cs g s).state.chipMode = s.chipMode := by
  rcases blinkWrites_cases cs g s with ⟨_, h⟩ | ⟨_, _, h⟩ | ⟨_, _, h⟩ <;> rw [h] <;> simp [modeAfterWrite]

/-! ### SET_BLINK's writes -/

/-- GROUP_CTRL answered OK (R76). -/
theorem groupCtrl_ok (cs : List Nat) (f : BitVec 2) {s : State} (h : s.okFor 1) :
    groupCtrl cs f s = done (busUpdate 0x04#8 (groupMask cs) (groupData f cs) s).2 := by
  rw [groupCtrl, orRaise_ok]; simp [State.nextDraw_eq, h 0]

/-- The general path's writes with every answer OK (R91). -/
theorem blinkWrites_ok (cs : List Nat) (g : Timing) {s : State} (h : s.okFor 3) :
    blinkWrites cs g s = done (busUpdate 0x04#8 (groupMask cs) (groupData 2#2 cs)
      (busWrite 0x02#8 g.code (busWrite 0x01#8 g.steps s).2).2).2 := by
  rcases blinkWrites_cases cs g s with ⟨a, _⟩ | ⟨_, a, _⟩ | ⟨_, _, a⟩
  · rw [h 0 (by omega)] at a; cases a
  · rw [h 1 (by omega)] at a; cases a
  · rw [a, groupCtrl, orRaise_ok]; simp [State.nextDraw_eq, h 2]

/-- The registers after GROUP_CTRL, whatever is answered (R38, R76). -/
theorem groupCtrl_reg (cs : List Nat) (f : BitVec 2) {s : State} (hwf : s.image.wf = true) (a : Nat) :
    (groupCtrl cs f s).state.reg a =
      if a = 4 ∧ s.landsAt 0 = true then (s.reg 4).update (groupMask cs) (groupData f cs) else s.reg a := by
  have h6 := six_le_regCount s.config
  have e4 : (4#8 : Byte).toNat = 4 := rfl
  rw [groupCtrl_state, busUpdate_reg _ _ _ hwf, applies_eq_landsAt]
  by_cases ha : a = 4 <;> simp [ha, e4, show 4 < regCount s.config by omega]

theorem okFor_one_iff (s : State) : s.okFor 1 ↔ (s.drawAt 0).result = .ok :=
  ⟨fun h => h 0 (by omega), fun h k hk => by have : k = 0 := by omega
                                             subst this; exact h⟩
theorem okFor_two_iff (s : State) : s.okFor 2 ↔ (s.drawAt 0).result = .ok ∧ (s.drawAt 1).result = .ok :=
  ⟨fun h => ⟨h 0 (by omega), h 1 (by omega)⟩, fun h k hk => by
    have : k = 0 ∨ k = 1 := by omega
    rcases this with rfl | rfl
    · exact h.1
    · exact h.2⟩

/-- The registers after the general path's writes, whatever is answered (R91, R99): a write is issued when those before it were
answered OK, and takes effect when it lands. -/
theorem blinkWrites_reg (cs : List Nat) (g : Timing) {s : State} (hwf : s.image.wf = true) (a : Nat) :
    (blinkWrites cs g s).state.reg a =
      if a = 1 ∧ s.landsAt 0 = true then RegVal.full g.steps
      else if a = 2 ∧ s.okFor 1 ∧ s.landsAt 1 = true then RegVal.full g.code
      else if a = 4 ∧ s.okFor 2 ∧ s.landsAt 2 = true then (s.reg 4).update (groupMask cs) (groupData 2#2 cs)
      else s.reg a := by
  have h6 := six_le_regCount s.config
  have e1 : (1#8 : Byte).toNat = 1 := rfl
  have e2 : (2#8 : Byte).toNat = 2 := rfl
  have r1 : ∀ x, (busWrite 0x01#8 g.steps s).2.reg x =
      if x = 1 ∧ s.landsAt 0 = true then RegVal.full g.steps else s.reg x := by
    intro x
    rw [busWrite_reg _ _ hwf, applies_eq_landsAt]
    by_cases hx : x = 1 <;> simp [hx, e1, show 1 < regCount s.config by omega]
  have r2 : ∀ x, (busWrite 0x02#8 g.code (busWrite 0x01#8 g.steps s).2).2.reg x =
      if x = 2 ∧ s.landsAt 1 = true then RegVal.full g.code
      else if x = 1 ∧ s.landsAt 0 = true then RegVal.full g.steps else s.reg x := by
    intro x
    rw [busWrite_reg _ _ (busWrite_wf _ _ hwf), applies_eq_landsAt, r1]
    by_cases hx : x = 2 <;> simp [hx, e2, show 2 < regCount s.config by omega]
  simp only [okFor_one_iff, okFor_two_iff]
  rcases blinkWrites_cases cs g s with ⟨h0, e⟩ | ⟨h0, h1, e⟩ | ⟨h0, h1, e⟩ <;> rw [e]
  · rw [raise_state, r1]; simp [h0]
  · rw [raise_state, r2]
    by_cases h : a = 1 <;> simp [h0, h1, h]
  · rw [groupCtrl_reg _ _ (busWrite_wf _ _ (busWrite_wf _ _ hwf)), r2, r2]
    simp only [busWrite_landsAt, h0, h1, true_and]
    by_cases h4 : a = 4
    · subst h4; simp
    · by_cases h : a = 1 <;> simp [h4, h]

/-- The same with every answer OK on a powered chip (R91). -/
theorem blinkWrites_ok_reg (cs : List Nat) (g : Timing) {s : State} (h : s.okFor 3) (hp : s.psrcOn = true)
    (hwf : s.image.wf = true) (a : Nat) :
    (blinkWrites cs g s).state.reg a =
      if a = 1 then RegVal.full g.steps else if a = 2 then RegVal.full g.code
      else if a = 4 then (s.reg 4).update (groupMask cs) (groupData 2#2 cs) else s.reg a := by
  have hl : ∀ k, k < 3 → s.landsAt k = true := fun k hk => landsAt_of_ok hp (h k hk)
  rw [blinkWrites_reg cs g hwf]
  by_cases h1 : a = 1
  · rw [if_pos ⟨h1, hl 0 (by omega)⟩, if_pos h1]
  · by_cases h2 : a = 2
    · rw [if_neg (fun x => h1 x.1), if_pos ⟨h2, State.okFor_mono h (by omega), hl 1 (by omega)⟩, if_neg h1, if_pos h2]
    · by_cases h4 : a = 4
      · rw [if_neg (fun x => h1 x.1), if_neg (fun x => h2 x.1),
          if_pos ⟨h4, State.okFor_mono h (by omega), hl 2 (by omega)⟩, if_neg h1, if_neg h2, if_pos h4]
      · simp [h1, h2, h4]

/-- The general path's writes leave the image in canonical form. -/
theorem blinkWrites_wf (cs : List Nat) (g : Timing) {s : State} (h : s.image.wf = true) :
    (blinkWrites cs g s).state.image.wf = true := by
  rcases blinkWrites_cases cs g s with ⟨_, e⟩ | ⟨_, _, e⟩ | ⟨_, _, e⟩ <;> rw [e]
  · exact busWrite_wf _ _ h
  · exact busWrite_wf _ _ (busWrite_wf _ _ h)
  · rw [groupCtrl_state]; exact busUpdate_wf _ _ _ (busWrite_wf _ _ (busWrite_wf _ _ h))

/-- The first answer ERR, at the `k`-th of the general path's writes, ends them (R91, R99). -/
theorem blinkWrites_err (cs : List Nat) (g : Timing) {s : State} (k : Nat) (hk : k < 3) (h : s.okFor k)
    (herr : (s.drawAt k).result = .err) :
    (blinkWrites cs g s).raised = some .bus ∧
    (blinkWrites cs g s).state.trace = s.trace ++ cutAt [.bus .write 0x01#8 0xFF#8 g.steps .ok,
      .bus .write 0x02#8 0xFF#8 g.code .ok, .bus .update 0x04#8 (groupMask cs) (groupData 2#2 cs) .ok] k := by
  have : k = 0 ∨ k = 1 ∨ k = 2 := by omega
  rcases blinkWrites_cases cs g s with ⟨h0, e⟩ | ⟨h0, h1, e⟩ | ⟨h0, h1, e⟩ <;> rw [e] <;> rcases this with rfl | rfl | rfl
  · simp [State.nextDraw_eq, h0, cutAt, Event.failed]
  · rw [h 0 (by omega)] at h0; cases h0
  · rw [h 0 (by omega)] at h0; cases h0
  · rw [herr] at h0; cases h0
  · simp [State.nextDraw_eq, h0, h1, cutAt, Event.failed]
  · rw [h 1 (by omega)] at h1; cases h1
  · rw [herr] at h0; cases h0
  · rw [herr] at h1; cases h1
  · simp [groupCtrl_raised, State.nextDraw_eq, h0, h1, herr, cutAt, Event.failed]

end Sys2Proof.Machine
end

