-- ==== Sys2Proof/Laws/Acts.lean ====
section
/-! SUPPORT. Everything a brightness or blink request can do after its checks, as a run of single actions: an invariant of
those requests is then one case analysis over `Act` and one induction over `Acts`. -/

namespace Sys2Proof.Machine

open Sys2Proof

/-- One thing a brightness or blink request on `led` can do after its checks. -/
inductive Act (led : Led) : State → State → Prop
  | wake (s) : Act led s (busWrite 0x00#8 0x00#8 s).2
  | sleep (s) : Act led s (busWrite 0x00#8 0x08#8 s).2
  | period (n : Byte) (s) (h1 : 1 ≤ n.toNat) (h2 : n.toNat ≤ 126) : Act led s (busWrite 0x01#8 n s).2
  | duty (code : Byte) (s) : Act led s (busWrite 0x02#8 code s).2
  | iled (c : Nat) (b : Byte) (s) (h : c ∈ ledMembers led) : Act led s (busWrite (iledAddr c) (iledCode b) s).2
  | field (c : Nat) (f : BitVec 2) (s) (h : c ∈ ledMembers led) (hf : f ≠ 3#2) :
      Act led s (busUpdate 0x04#8 (ctrlMask c) (ctrlData c f) s).2
  | fields (f : BitVec 2) (s) (hf : f ≠ 3#2) :
      Act led s (busUpdate 0x04#8 (groupMask (ledMembers led)) (groupData f (ledMembers led)) s).2
  | enable (s) : Act led s (powerEnable s).2
  | disable (s) : Act led s (powerDisable s).2
  | flag (b : Bool) (s) : Act led s (s.setEnabled b)
  | bright (c : Nat) (b : Byte) (s) (h : c ∈ ledMembers led) : Act led s (s.setChBright (s.chBright.set c b))

/-- A run of such actions. -/
inductive Acts (led : Led) : State → State → Prop
  | refl (s) : Acts led s s
  | step {s t u} (h : Acts led s t) (h' : Act led t u) : Acts led s u

theorem Acts.one {led s t} (h : Act led s t) : Acts led s t := .step (.refl s) h
theorem Acts.trans {led s t u} (h : Acts led s t) (h' : Acts led t u) : Acts led s u := by
  induction h' with
  | refl => exact h
  | step _ h2 ih => exact .step ih h2

theorem ensureEnabled_acts (led) (s) : Acts led s (ensureEnabled s).state := by
  rcases ensureEnabled_cases s with ⟨_, h⟩ | ⟨_, _, h⟩ | ⟨_, _, _, h⟩ | ⟨_, _, _, h⟩ <;> rw [h]
  · exact .refl _
  · exact .one (.enable s)
  · exact .step (.step (.one (.enable s)) (.wake _)) (.flag _ _)
  · exact .step (.step (.one (.enable s)) (.wake _)) (.disable _)

theorem ensureDisabled_acts (led) (s) : Acts led s (ensureDisabled s) := by
  rcases ensureDisabled_cases s with ⟨_, h⟩ | ⟨_, _, h⟩ | ⟨_, _, h⟩ <;> rw [h]
  · exact .refl _
  · exact .step (.step (.one (.sleep s)) (.disable _)) (.flag _ _)
  · exact .step (.one (.sleep s)) (.disable _)

/-- GATED consists of such actions if its body does. -/
theorem gated_acts {led bOld bNew body} {s : State} (hb : ∀ t, Acts led t (body t).state) : Acts led s (gated bOld bNew body s).state := by
  obtain ⟨u, hu, hg⟩ := gated_cases bOld bNew body s
  have : Acts led s u.state := by rw [hu]; split; exact ensureEnabled_acts _ _; exact .refl _
  rcases hg with ⟨e, h1, h2⟩ | ⟨_, e, h1, h2⟩ | ⟨_, _, h2⟩ <;> rw [h2]
  · exact this
  · exact this.trans (hb _)
  · simp only [done_state]; split
    · exact this.trans (hb _)
    · exact (this.trans (hb _)).trans (ensureDisabled_acts _ _)

theorem modeFor_ne (b) : modeFor b ≠ 3#2 := by unfold modeFor; split <;> decide

theorem setChannel_acts {led c} (hc : c ∈ ledMembers led) (b s) : Acts led s (setChannel c b s).state := by
  rcases setChannel_cases c b s with ⟨_, h⟩ | ⟨_, h⟩ <;> rw [h]
  · exact .step (.one (.bright c b s hc)) (.iled c b _ hc)
  · rw [ctrlSet_state]; exact .step (.step (.one (.bright c b s hc)) (.iled c b _ hc)) (.field c _ _ hc (modeFor_ne b))

theorem writeChannels_acts {led} : ∀ (ps : List (Nat × Byte)) (s), (∀ x ∈ ps, x.1 ∈ ledMembers led) → Acts led s (writeChannels ps s).state
  | [], s, _ => .refl s
  | (c, b) :: rest, s, h => by
    rw [writeChannels_cons]
    have h1 := setChannel_acts (h (c, b) (by simp)) b s
    rcases Micro.andThen_cases (setChannel c b s) (writeChannels rest) with ⟨_, e⟩ | ⟨_, _, e⟩ <;> rw [e]
    · exact h1.trans (writeChannels_acts rest _ (fun x hx => h x (by simp [hx])))
    · exact h1

theorem ledWrite_acts (led v s) : Acts led s (ledWrite led v s).state :=
  writeChannels_acts _ _ (fun x hx => by rw [← ledOutputs_fst v]; exact List.mem_map_of_mem hx)

theorem setBrightnessBody_acts (t : BitVec 4) (led v) (s : State) :
    Acts led (s.setLedBright (s.ledBright.set t.toNat v)) (setBrightnessBody t led v s).state :=
  gated_acts (ledWrite_acts led v)

theorem groupCtrl_acts (led f s) (hf : f ≠ 3#2) : Acts led s (groupCtrl (ledMembers led) f s).state := by
  rw [groupCtrl_state]; exact .one (.fields f s hf)


theorem blinkWrites_acts (led) (g : Timing) (s) (h1 : 1 ≤ g.steps.toNat) (h2 : g.steps.toNat ≤ 126) : Acts led s (blinkWrites (ledMembers led) g s).state := by
  rcases blinkWrites_cases (ledMembers led) g s with ⟨a, h⟩ | ⟨_, a, h⟩ | ⟨_, _, h⟩ <;> rw [h]
  · exact .one (.period _ _ h1 h2)
  · exact .step (.one (.period _ _ h1 h2)) (.duty _ _)
  · exact (Acts.step (.one (.period _ _ h1 h2)) (.duty _ _)).trans (groupCtrl_acts _ _ _ (by decide))

/-- What no action of a target request touches. -/
theorem acts_frame {led s u} (h : Acts led s u) : u.config = s.config ∧ u.lifecycle = s.lifecycle ∧ u.ledBright = s.ledBright ∧ u.responses = s.responses ∧ u.pending = s.pending ∧
    (∀ c, c ∉ ledMembers led → u.chBright[c]? = s.chBright[c]?) ∧ u.chBright.length = s.chBright.length := by
  induction h with
  | refl => simp
  | step _ h2 ih =>
    obtain ⟨i1, i2, i3, i4, i5, i6, i7⟩ := ih
    cases h2 with
    | bright c b _ hc =>
      simp [*]
      intro d hd
      rw [List.getElem?_set_ne (by rintro rfl; exact hd hc), i6 d hd]
    | _ => simp [*]; exact i6

theorem setBlinkBody_cases (t : BitVec 4) (led : Led) (on off : Millis) (s : State) :
    (on ≠ 0#64 ∧ off = 0#64 ∧ setBlinkBody t led on off s = blinkAlwaysOn led on off s) ∨
    (on = 0#64 ∧ off ≠ 0#64 ∧ setBlinkBody t led on off s = blinkNeverOn t led on off s) ∨
    (on ≠ 0#64 ∧ off ≠ 0#64 ∧ setBlinkBody t led on off s = blinkGeneral led on off on off s) ∨
    (on = 0#64 ∧ off = 0#64 ∧ setBlinkBody t led on off s = blinkGeneral led 500#64 500#64 on off s) := by
  by_cases h1 : on = 0#64 <;> by_cases h2 : off = 0#64 <;> simp [setBlinkBody, h1, h2]

end Sys2Proof.Machine
end

