-- ==== Sys2Proof/Laws/Encoding.lean ====
section
/-! SUPPORT. The fields of a request word and of a bus-transaction word that the encoder builds (R53, R58). -/

namespace Sys2Proof

/-- Each field of an encoded request reads back (R53). -/
theorem requestWord_fields (op t : BitVec 4) (v : Byte) (on off : Millis) :
    (requestWord op t v on off).extractLsb' 0 4 = op ∧ (requestWord op t v on off).extractLsb' 4 4 = t ∧
    (requestWord op t v on off).extractLsb' 8 8 = v ∧ (requestWord op t v on off).extractLsb' 16 64 = on ∧
    (requestWord op t v on off).extractLsb' 80 64 = off := by
  unfold requestWord
  refine ⟨?_, ?_, ?_, ?_, ?_⟩ <;> ext k hk <;>
    simp [BitVec.getElem_extractLsb'] <;> grind

/-- Each field of an encoded bus transaction reads back (R58). -/
theorem busWord_fields (k : BusKind) (a m v : Byte) :
    (busWord k a m v).extractLsb' 24 2 = k.code ∧ (busWord k a m v).extractLsb' 16 8 = a ∧
    (busWord k a m v).extractLsb' 8 8 = m ∧ (busWord k a m v).extractLsb' 0 8 = v := by
  unfold busWord
  refine ⟨?_, ?_, ?_, ?_⟩ <;> ext j hj <;>
    simp [BitVec.getElem_extractLsb'] <;> grind

end Sys2Proof
end

