-- ==== Sys2Proof/Laws/PerInstr.lean ====
section
/-! SUPPORT. Families of statements about every instruction, one lemma per constructor. -/

namespace Sys2Proof.Laws

open Sys2Proof

/-- The fixed bits of a row of spec/opcode_table.json: `width` bits from `lo` hold `value`. -/
structure FixedBits where
  lo : Nat
  width : Nat
  value : Nat

/-- The fixed bits of each row, as spec/opcode_table.json gives them. -/
def fixedBits : Instr → FixedBits
  | .setBrightness _ _ _ _ => ⟨0, 4, 1⟩
  | .setBlink _ _ _ => ⟨0, 4, 2⟩
  | .attach _ _ => ⟨0, 4, 3⟩
  | .detach _ _ => ⟨0, 4, 4⟩
  | .shutdown _ _ => ⟨0, 4, 5⟩
  | .reservedOp0 _ _ => ⟨0, 4, 0⟩
  | .reservedOp67 _ _ _ => ⟨1, 3, 3⟩
  | .reservedOp8F _ _ _ => ⟨3, 1, 1⟩
  | .resetCmd => ⟨0, 26, 65287⟩
  | .sleepCmd => ⟨0, 26, 65288⟩
  | .wakeCmd => ⟨0, 26, 65280⟩
  | .wrPeriod _ => ⟨8, 18, 511⟩
  | .wrPwm1 _ => ⟨8, 18, 767⟩
  | .updCtrl _ _ => ⟨16, 10, 260⟩
  | .wrIled0 _ => ⟨8, 18, 1791⟩
  | .wrIled1 _ => ⟨8, 18, 2047⟩
  | .wrIled2 _ => ⟨8, 18, 2303⟩
  | .wrIled3 _ => ⟨8, 18, 2559⟩

/-- Some bits of a word at either port. -/
def portBits (lo width : Nat) : PortWord → BitVec width
  | .request w => w.extractLsb' lo width
  | .bus w => w.extractLsb' lo width

theorem request_op_bits (op t : BitVec 4) (v : Byte) (on off : Millis) (j n : Nat) (h : j + n ≤ 4) :
    (requestWord op t v on off).extractLsb' j n = op.extractLsb' j n := by
  obtain ⟨h', -⟩ := requestWord_fields op t v on off
  conv_rhs => rw [← h']
  ext k hk
  simp [BitVec.getElem_extractLsb', show j + k < 4 by omega]

theorem bus_high_bits (k : BusKind) (a m v : Byte) : (busWord k a m v).extractLsb' 8 18 = k.code ++ a ++ m := by
  unfold busWord
  ext j hj
  simp [BitVec.getElem_extractLsb']
  grind

theorem bus_kind_addr (k : BusKind) (a m v : Byte) : (busWord k a m v).extractLsb' 16 10 = k.code ++ a := by
  unfold busWord
  ext j hj
  simp [BitVec.getElem_extractLsb']
  grind

namespace EncodeMatchesRow

/-- The encoder puts the instruction at its port and its row's fixed bits in the word. -/
def Statement (i : Instr) : Prop :=
  (encode i).isRequest = i.isRequest ∧
  portBits (fixedBits i).lo (fixedBits i).width (encode i) = BitVec.ofNat _ (fixedBits i).value

theorem setBrightness (t : BitVec 4) (v : Byte) (on off : Millis) : Statement (.setBrightness t v on off) :=
  ⟨rfl, (request_op_bits 1#4 t v on off 0 4 (by omega)).trans rfl⟩

theorem setBlink (t : BitVec 4) (on off : Millis) : Statement (.setBlink t on off) :=
  ⟨rfl, (request_op_bits 2#4 t 0#8 on off 0 4 (by omega)).trans rfl⟩

theorem attach (on off : Millis) : Statement (.attach on off) :=
  ⟨rfl, (request_op_bits 3#4 0#4 0#8 on off 0 4 (by omega)).trans rfl⟩

theorem detach (on off : Millis) : Statement (.detach on off) :=
  ⟨rfl, (request_op_bits 4#4 0#4 0#8 on off 0 4 (by omega)).trans rfl⟩

theorem shutdown (on off : Millis) : Statement (.shutdown on off) :=
  ⟨rfl, (request_op_bits 5#4 0#4 0#8 on off 0 4 (by omega)).trans rfl⟩

theorem reservedOp0 (on off : Millis) : Statement (.reservedOp0 on off) :=
  ⟨rfl, (request_op_bits 0#4 0#4 0#8 on off 0 4 (by omega)).trans rfl⟩

theorem reservedOp67 (low : BitVec 1) (on off : Millis) : Statement (.reservedOp67 low on off) :=
  ⟨rfl, (request_op_bits (3#3 ++ low) 0#4 0#8 on off 1 3 (by omega)).trans
    (show (3#3 ++ low).extractLsb' 1 3 = 3#3 by revert low; decide)⟩

theorem reservedOp8F (low : BitVec 3) (on off : Millis) : Statement (.reservedOp8F low on off) :=
  ⟨rfl, (request_op_bits (1#1 ++ low) 0#4 0#8 on off 3 1 (by omega)).trans
    (show (1#1 ++ low).extractLsb' 3 1 = 1#1 by revert low; decide)⟩

theorem resetCmd : Statement .resetCmd := ⟨rfl, rfl⟩

theorem sleepCmd : Statement .sleepCmd := ⟨rfl, rfl⟩

theorem wakeCmd : Statement .wakeCmd := ⟨rfl, rfl⟩

theorem wrPeriod (n : Byte) : Statement (.wrPeriod n) :=
  ⟨rfl, (bus_high_bits .write 0x01#8 0xFF#8 n).trans
    (show BusKind.write.code ++ 0x01#8 ++ 0xFF#8 = 511#18 by decide)⟩

theorem wrPwm1 (code : Byte) : Statement (.wrPwm1 code) :=
  ⟨rfl, (bus_high_bits .write 0x02#8 0xFF#8 code).trans
    (show BusKind.write.code ++ 0x02#8 ++ 0xFF#8 = 767#18 by decide)⟩

theorem updCtrl (m v : Byte) : Statement (.updCtrl m v) :=
  ⟨rfl, (bus_kind_addr .update 0x04#8 m v).trans
    (show BusKind.update.code ++ 0x04#8 = 260#10 by decide)⟩

theorem wrIled0 (code : Byte) : Statement (.wrIled0 code) :=
  ⟨rfl, (bus_high_bits .write 0x06#8 0xFF#8 code).trans
    (show BusKind.write.code ++ 0x06#8 ++ 0xFF#8 = 1791#18 by decide)⟩

theorem wrIled1 (code : Byte) : Statement (.wrIled1 code) :=
  ⟨rfl, (bus_high_bits .write 0x07#8 0xFF#8 code).trans
    (show BusKind.write.code ++ 0x07#8 ++ 0xFF#8 = 2047#18 by decide)⟩

theorem wrIled2 (code : Byte) : Statement (.wrIled2 code) :=
  ⟨rfl, (bus_high_bits .write 0x08#8 0xFF#8 code).trans
    (show BusKind.write.code ++ 0x08#8 ++ 0xFF#8 = 2303#18 by decide)⟩

theorem wrIled3 (code : Byte) : Statement (.wrIled3 code) :=
  ⟨rfl, (bus_high_bits .write 0x09#8 0xFF#8 code).trans
    (show BusKind.write.code ++ 0x09#8 ++ 0xFF#8 = 2559#18 by decide)⟩

end EncodeMatchesRow

end Sys2Proof.Laws
end

