-- ==== Sys2Proof/Tests/Slice0.lean ====
section
/-! SUPPORT. Tests: the well-formedness checks, the words of spec/95_test_vectors.md V10 and R59, one step of each
instruction from its vectors V3 to V9, and for every obligation with hypotheses a witness that meets them. -/

namespace Sys2Proof.Tests

set_option Elab.async false

open Sys2Proof Sys2Proof.Machine

/-! ### Well-formedness refuses -/

theorem test_wf_period_zero : (Instr.wrPeriod 0#8).wellFormed 3 = false := by decide
theorem test_wf_period_127 : (Instr.wrPeriod 127#8).wellFormed 3 = false := by decide
theorem test_wf_period_ends : (Instr.wrPeriod 1#8).wellFormed 3 = true ∧ (Instr.wrPeriod 126#8).wellFormed 3 = true := by decide
theorem test_wf_iled_255 : (Instr.wrIled0 255#8).wellFormed 3 = false ∧ (Instr.wrIled1 255#8).wellFormed 3 = false ∧
    (Instr.wrIled2 255#8).wellFormed 3 = false ∧ (Instr.wrIled3 255#8).wellFormed 4 = false := by decide
theorem test_wf_iled3_on_three_channels : (Instr.wrIled3 0#8).wellFormed 3 = false := by decide
theorem test_wf_mask_empty : (Instr.updCtrl 0x00#8 0x00#8).wellFormed 4 = false := by decide
theorem test_wf_mask_partial_field : (Instr.updCtrl 0x04#8 0x04#8).wellFormed 4 = false := by decide
theorem test_wf_mask_absent_channel : (Instr.updCtrl 0xC0#8 0x40#8).wellFormed 3 = false := by decide
theorem test_wf_data_outside_mask : (Instr.updCtrl 0x0C#8 0x05#8).wellFormed 4 = false := by decide
theorem test_wf_data_pattern_two : (Instr.updCtrl 0x0C#8 0x0C#8).wellFormed 4 = false := by decide
theorem test_wf_accepts_v3 : (Instr.updCtrl 0xCC#8 0x88#8).wellFormed 4 = true := by decide

/-! ### Words (V10, R59, V3) -/

theorem test_decode_requests :
    decode (.request 0x000000000000000000000000000000008001#144) = .ok (.setBrightness 0#4 128#8 0#64 0#64) ∧
    decode (.request 0x00000000000001F400000000000001F40012#144) = .ok (.setBlink 1#4 500#64 500#64) ∧
    decode (.request 0x000000000000000000000000000000000003#144) = .ok (.attach 0#64 0#64) ∧
    decode (.request 0x000000000000000000000000000000000004#144) = .ok (.detach 0#64 0#64) ∧
    decode (.request 0x000000000000000000000000000000000005#144) = .ok (.shutdown 0#64 0#64) :=
  ⟨rfl, rfl, rfl, rfl, rfl⟩

theorem test_decode_reserved :
    decode (.request 0x000000000000000000000000000000000000#144) = .ok (.reservedOp0 0#64 0#64) ∧
    decode (.request 0x000000000000000000000000000000000006#144) = .ok (.reservedOp67 0#1 0#64 0#64) ∧
    decode (.request 0x00000000000000090000000000000009072F#144) = .ok (.reservedOp8F 7#3 9#64 9#64) :=
  ⟨rfl, rfl, rfl⟩

theorem test_decode_bus :
    decode (.bus 0x000FF07#26) = .ok .resetCmd ∧ decode (.bus 0x000FF08#26) = .ok .sleepCmd ∧
    decode (.bus 0x000FF00#26) = .ok .wakeCmd ∧ decode (.bus 0x001FF07#26) = .ok (.wrPeriod 7#8) ∧
    decode (.bus 0x002FFB3#26) = .ok (.wrPwm1 0xB3#8) ∧ decode (.bus 0x1043F2A#26) = .ok (.updCtrl 0x3F#8 0x2A#8) ∧
    decode (.bus 0x006FFFE#26) = .ok (.wrIled0 0xFE#8) ∧ decode (.bus 0x007FFC7#26) = .ok (.wrIled1 0xC7#8) ∧
    decode (.bus 0x008FF3F#26) = .ok (.wrIled2 0x3F#8) ∧ decode (.bus 0x009FFFE#26) = .ok (.wrIled3 0xFE#8) :=
  ⟨rfl, rfl, rfl, rfl, rfl, rfl, rfl, rfl, rfl, rfl⟩

theorem test_decode_rejects_by_name :
    decode (.bus 0x204FF00#26) = .error .readKind ∧ decode (.bus 0x304FF00#26) = .error .reservedKind ∧
    decode (.bus 0x0010F07#26) = .error .writeMask ∧ decode (.bus 0x000FF01#26) = .error .resetCode ∧
    decode (.bus 0x003FF00#26) = .error .neverWritten ∧ decode (.bus 0x1010F00#26) = .error .neverUpdated ∧
    decode (.bus 0x00AFF00#26) = .error .noRegister := ⟨rfl, rfl, rfl, rfl, rfl, rfl, rfl⟩

theorem test_table_word : decodeTableWord 8 2 = some (.setBlink 0#4 0#64 0#64) ∧
    decodeTableWord 32 0x009FF00 = some (.wrIled3 0#8) ∧
    decodeTableWord 144 0x009FF00 = some (.reservedOp0 9#64 0#64) := ⟨rfl, rfl, rfl⟩

theorem test_response_words :
    Response.word ⟨.ok, 576#64, 576#64⟩ = 0x12000000000000001200#131 ∧
    Response.word ⟨.busError, 500#64, 500#64⟩ = 0xFA00000000000000FA1#131 ∧
    Response.word ⟨.illegalRequest, 10#64, 20#64⟩ = 0xA00000000000000054#131 := ⟨rfl, rfl, rfl⟩

theorem test_text : Instr.text? (.setBlink 1#4 500#64 300#64) = some "SET_BLINK L1, 500, 300" ∧
    Event.text (.bus .update 0x04#8 0x0C#8 0x04#8 .err) = "UPD 4, 12, 4 -> ERR" := by decide +kernel

/-- P2, steps 3 and 4. -/
theorem test_pseudo : encode (Instr.blinkDefault 0#4) = .request 0x0002#144 ∧
    encode (Instr.blinkStop 0#4) = .request 0x010002#144 ∧
    encode (Instr.ledOff 1#4) = .request 0x0011#144 := ⟨rfl, rfl, rfl⟩

/-! ### Example machines -/

/-- Three single LEDs on a 3-channel chip (V7), with defaults that no write produces. -/
def singles : Params := ⟨3, [.single 0, .single 1, .single 2], Vector.replicate 10 0xA5#8, 100, false, false⟩

/-- A colour group and a single LED on a 4-channel chip (V7, P2). -/
def grouped : Params :=
  ⟨4, [.group [⟨0, 255, 0⟩, ⟨1, 128, 1⟩, ⟨2, 64, 2⟩], .single 3], Vector.replicate 10 0#8, 0, false, false⟩

/-- Answers, all OK, with effects dropped where that is drawn. -/
def oks (n : Nat) : List Draw := List.replicate n ⟨.ok, false⟩

/-- An ERR answer whose effect is dropped. -/
def bad : Draw := ⟨.err, false⟩

/-- A machine in use, the power source on and the chip awake, its registers at their defaults. -/
def used (p : Params) (on : Bool) (b : List Byte) (d : List Draw) : State :=
  { State.start p true with
    lifecycle := .attached, enabled := on, ledBright := b, chipMode := .awake, image := defaultImage p, draws := d }

/-- One field of the state that a step ends in. -/
def after {α : Type} (o : Host.Outcome State Fault Refusal) (f : State → α) : Option α :=
  match o with
  | .next s => some (f s)
  | .fault _ => none
  | .refused _ => none

/-! ### One step of each instruction -/

/-- V7 #1. -/
theorem test_brightness_wakes :
    after (exec (.setBrightness 0#4 128#8 0#64 0#64) (used singles false [0#8, 0#8, 0#8] (oks 4))) (fun u =>
      (u.trace, u.ledBright, u.enabled, u.responses)) =
    some ([.pwr .enable .ok, .bus .write 0x00#8 0xFF#8 0x00#8 .ok, .bus .write 0x06#8 0xFF#8 0x7F#8 .ok,
      .bus .update 0x04#8 0x03#8 0x01#8 .ok], [128#8, 0#8, 0#8], true, [⟨.ok, 0#64, 0#64⟩]) := by decide +kernel

/-- V7 #13: the fifth answer is ERR. -/
theorem test_group_bus_error :
    after (exec (.setBrightness 0#4 255#8 0#64 0#64) (used grouped false [0#8, 0#8] (oks 4 ++ [bad]))) (fun u =>
      (u.trace.drop 4, u.chBright, u.enabled, u.responses)) =
    some ([.bus .write 0x07#8 0xFF#8 0x7F#8 .err], [255#8, 128#8, 0#8, 0#8], true, [⟨.busError, 0#64, 0#64⟩]) := by
  decide +kernel

/-- V8 #2, #6. -/
theorem test_blink_general :
    after (exec (.setBlink 0#4 700#64 300#64) (used singles true [100#8, 0#8, 0#8] (oks 3))) (fun u =>
      (u.trace, u.responses)) =
    some ([.bus .write 0x01#8 0xFF#8 0x07#8 .ok, .bus .write 0x02#8 0xFF#8 0xB3#8 .ok,
      .bus .update 0x04#8 0x03#8 0x02#8 .ok], [⟨.ok, 805#64, 347#64⟩]) ∧
    after (exec (.setBlink 0#4 500#64 500#64) (used singles true [100#8, 0#8, 0#8] [bad])) (fun u =>
      (u.trace, u.reg 1, u.responses)) =
    some ([.bus .write 0x01#8 0xFF#8 0x07#8 .err], RegVal.full 0xA5#8, [⟨.busError, 500#64, 500#64⟩]) := by decide +kernel

/-- V8 #5. -/
theorem test_blink_never_on :
    after (exec (.setBlink 0#4 0#64 1000#64) (used singles true [100#8, 0#8, 0#8] (oks 4))) (fun u =>
      (u.trace, u.responses, u.enabled)) =
    some ([.bus .write 0x06#8 0xFF#8 0x00#8 .ok, .bus .update 0x04#8 0x03#8 0x00#8 .ok,
      .bus .write 0x00#8 0xFF#8 0x08#8 .ok, .pwr .disable .ok], [⟨.ok, 0#64, 1000#64⟩], false) := by decide +kernel

/-- V9 #1. -/
theorem test_attach :
    after (exec (.attach 0#64 0#64) { State.start singles true with draws := oks 1 }) (fun u =>
      (u.trace, u.lifecycle, u.reg 4)) =
    some ([.bus .write 0x00#8 0xFF#8 0x07#8 .ok, .wait 300], .attached, RegVal.full 0xA5#8) := by decide +kernel

/-- V9 #7: channel 0 in two LEDs. -/
theorem test_attach_config_error :
    after (exec (.attach 0#64 0#64)
      { State.start ⟨3, [.group [⟨0, 255, 0⟩], .single 0], Vector.replicate 10 0#8, 0, false, false⟩ true with
        draws := oks 1 }) (fun u => (u.lifecycle, u.responses)) =
    some (.uninit, [⟨.configError, 0#64, 0#64⟩]) := by decide +kernel

/-- V9 #11: both answers ERR. -/
theorem test_detach_ignores_errors :
    after (exec (.detach 0#64 0#64) (used singles true [1#8, 0#8, 0#8] [bad, bad])) (fun u =>
      (u.trace, u.lifecycle, u.enabled, u.psrcOn)) =
    some ([.bus .write 0x00#8 0xFF#8 0x07#8 .err, .pwr .disable .err], .removed, false, true) := by decide +kernel

/-- V9 #13. -/
theorem test_shutdown_keeps_enabled :
    after (exec (.shutdown 0#64 0#64) (used singles true [1#8, 0#8, 0#8] [bad])) (fun u =>
      (u.trace, u.lifecycle, u.enabled)) =
    some ([.bus .write 0x00#8 0xFF#8 0x07#8 .err], .shutdown, true) := by decide +kernel

/-- V10, last rows: a reserved opcode through the decoder. -/
theorem test_reserved_step :
    after (step { State.start singles true with
      pending := [.request 0x00000000000000090000000000000009072F#144] }) (fun u => (u.trace, u.responses, u.pending)) =
    some ([], [⟨.illegalRequest, 9#64, 9#64⟩], []) := by decide +kernel

/-- R39: the reset sets every register of the chip, and only those. -/
theorem test_reset_cmd :
    after (exec .resetCmd { State.start singles true with draws := oks 1 }) (fun u => (u.reg 0, u.reg 8, u.reg 9)) =
    some (RegVal.full 0xA5#8, RegVal.full 0xA5#8, RegVal.noValue) := by decide +kernel

/-- R39: sleep and wake set RESET_CTRL alone. -/
theorem test_sleep_wake :
    after (exec .sleepCmd (used singles true [1#8, 0#8, 0#8] (oks 1))) (fun u => (u.reg 0, u.reg 1, u.chipMode)) =
      some (RegVal.full 0x08#8, RegVal.full 0xA5#8, .asleep) ∧
    after (exec .wakeCmd (used singles true [1#8, 0#8, 0#8] (oks 1))) (fun u => (u.reg 0, u.reg 1, u.chipMode)) =
      some (RegVal.full 0x00#8, RegVal.full 0xA5#8, .awake) := by decide +kernel

/-- R37: an ERR answer whose effect is drawn as applied still writes. -/
theorem test_write_err_applied :
    after (exec (.wrPeriod 7#8) (used singles true [1#8, 0#8, 0#8] [⟨.err, true⟩])) (fun u => (u.reg 1, u.reg 2)) =
      some (RegVal.full 0x07#8, RegVal.full 0xA5#8) ∧
    after (exec (.wrPwm1 7#8) (used singles true [1#8, 0#8, 0#8] [bad])) (fun u => (u.reg 1, u.reg 2)) =
      some (RegVal.full 0xA5#8, RegVal.full 0xA5#8) := by decide +kernel

/-- E8, and V3's image effect. -/
theorem test_update_field :
    (RegVal.full 0x92#8).update 0x0C#8 0x04#8 = RegVal.full 0x96#8 ∧
    (RegVal.full 0x55#8).update 0xCC#8 0x88#8 = RegVal.full 0x99#8 ∧
    RegVal.noValue.update 0x0C#8 0x04#8 = ⟨0x0C#8, 0x04#8⟩ := by decide

/-- R38 on an image in which no register holds a value. -/
theorem test_upd_ctrl :
    after (exec (.updCtrl 0x0C#8 0x04#8) { State.start singles true with draws := oks 1 }) (fun u =>
      (u.reg 4, u.reg 5, u.channelMode 1, u.channelMode 0)) =
    some (⟨0x0C#8, 0x04#8⟩, RegVal.noValue, some 1#2, none) := by decide +kernel

/-- R37 at each output-current register. -/
theorem test_wr_iled :
    after (exec (.wrIled0 9#8) (used grouped true [1#8, 0#8] (oks 1))) (fun u => (u.reg 6, u.reg 7)) =
      some (RegVal.full 9#8, RegVal.full 0#8) ∧
    after (exec (.wrIled1 9#8) (used grouped true [1#8, 0#8] (oks 1))) (fun u => (u.reg 7, u.reg 8)) =
      some (RegVal.full 9#8, RegVal.full 0#8) ∧
    after (exec (.wrIled2 9#8) (used grouped true [1#8, 0#8] (oks 1))) (fun u => (u.reg 8, u.reg 9)) =
      some (RegVal.full 9#8, RegVal.full 0#8) ∧
    after (exec (.wrIled3 9#8) (used grouped true [1#8, 0#8] (oks 1))) (fun u => (u.reg 9, u.reg 6)) =
      some (RegVal.full 9#8, RegVal.full 0#8) := by decide +kernel

/-- V6: a sum below 256, an odd ratio, and the ends of the band. -/
theorem test_quantize :
    quantize 100 155 = ⟨1, 100, 150, 234⟩ ∧ quantize 256 1 = ⟨2, 255, 510, 2⟩ ∧ quantize 700 300 = ⟨7, 179, 805, 347⟩ ∧
    quantize 8128 8129 = ⟨126, 127, 8128, 8256⟩ ∧ quantize (2 ^ 56 - 1) 1 = ⟨126, 255, 16320, 64⟩ := by decide +kernel

/-- V1, V2. -/
theorem test_brightness_map :
    iledCode 0#8 = 0#8 ∧ iledCode 1#8 = 0#8 ∧ iledCode 192#8 = 191#8 ∧ iledCode 255#8 = 254#8 ∧
    scaledOutput 127#8 64 = 31#8 ∧ scaledOutput 254#8 128 = 127#8 ∧ scaledOutput 2#8 64 = 0#8 := by decide

/-- The state after reset has its register image in canonical form. -/
theorem test_reset_image_wf : State.reset.image.wf = true := rfl

/-- R108, R109 after a power cycle: only the level of channel 0 is open, first blinking (E1), then driven; channel 1 is driven at 99. -/
theorem test_output_level_open :
    after (exec (.setBlink 0#4 500#64 500#64) { used singles false [0#8, 100#8, 0#8] (oks 5) with image := RegImage.empty })
      (fun u => u.channelOutput 0) = some (.blink (some 1152) (some 128#8) none) ∧
    after (exec (.setBlink 0#4 1#64 0#64) { used singles false [0#8, 100#8, 0#8] (oks 3) with image := RegImage.empty })
      (fun u => u.channelOutput 0) = some (.steady none) ∧
    after (exec (.setBrightness 1#4 100#8 0#64 0#64)
      { used singles false [0#8, 0#8, 0#8] (oks 4) with image := RegImage.empty })
      (fun u => u.channelOutput 1) = some (.steady (some 99#8)) := by decide +kernel

/-- R111: after ATTACH's settle wait the chip is not resetting (log 11). -/
theorem test_attach_settles :
    after (exec (.attach 0#64 0#64) { State.start singles true with draws := oks 1 }) State.chipPower = some .settled := by
  decide +kernel

/-- D30: bits [7:6] of CHANNEL_CTRL drive nothing that the sources describe on a 3-channel chip (log 19). -/
theorem test_absent_channel_undetermined :
    (used singles true [1#8, 0#8, 0#8] []).channelOutput 3 = .undetermined ∧
    (used grouped true [1#8, 0#8] []).channelOutput 3 = .off := by decide +kernel

/-! ### Witnesses: states and operands that meet the hypotheses of each obligation that has any -/

theorem witness_StepRunsDecodedInstruction :
    (∃ (s : State) (w : PortWord) (rest : List PortWord) (i : Instr), s.pending = w :: rest ∧ decode w = .ok i) ∧
    (∃ (s : State) (w : PortWord) (rest : List PortWord) (e : DecodeError), s.pending = w :: rest ∧ decode w = .error e) ∧
    State.reset.pending = [] :=
  ⟨⟨{ State.start singles true with pending := [.bus 0x000FF07#26] }, _, _, .resetCmd, rfl, rfl⟩,
    ⟨{ State.start singles true with pending := [.bus 0x204FF00#26] }, _, _, .readKind, rfl, rfl⟩, rfl⟩

theorem witness_BusWordHasOneMeaning : decodeBus 0x104CC88#26 = .ok (.updCtrl 0xCC#8 0x88#8) := rfl

theorem witness_IgnoredRequestFieldsHaveNoEffect :
    (∃ w w' : RequestWord, w ≠ w' ∧ w.extractLsb' 0 4 = w'.extractLsb' 0 4 ∧
      w.extractLsb' 16 128 = w'.extractLsb' 16 128 ∧ w.extractLsb' 0 4 = 3#4) ∧
    (∃ w w' : RequestWord, w ≠ w' ∧ w.extractLsb' 0 4 = w'.extractLsb' 0 4 ∧
      w.extractLsb' 16 128 = w'.extractLsb' 16 128 ∧ w.extractLsb' 0 4 = 2#4 ∧
      w.extractLsb' 4 4 = w'.extractLsb' 4 4) ∧
    (used singles true [1#8, 0#8, 0#8] []).lifecycle = .attached ∧ (2#4).toNat < singles.ledCount ∧
    (State.start singles true).lifecycle = .uninit :=
  ⟨⟨0x0003#144, 0xFFF3#144, by decide, by decide, by decide, by decide⟩,
    ⟨0x0012#144, 0xFF12#144, by decide, by decide, by decide, by decide, by decide⟩, rfl, by decide, rfl⟩

theorem witness_ReservedOpcodesAnsweredIllegal :
    (0x0010#144).extractLsb' 0 4 = 0#4 ∧ 6 ≤ ((0x0006#144).extractLsb' 0 4).toNat ∧
    6 ≤ ((0x000F#144).extractLsb' 0 4).toNat := by decide

theorem witness_LifecycleDecidesLegality :
    (Instr.attach 0#64 0#64).isRequest = true ∧ Lifecycle.attached ∉ legalLifecycles (.attach 0#64 0#64) ∧
    Lifecycle.uninit ∈ legalLifecycles (.attach 0#64 0#64) ∧
    (used singles true [1#8, 0#8, 0#8] []).lifecycle ∈ legalLifecycles (.setBlink 2#4 0#64 0#64) ∧
    (∀ t, (Instr.setBlink 2#4 0#64 0#64).target? = some t → t.toNat < singles.ledCount) :=
  ⟨rfl, by decide, by decide, by decide, by rintro t ⟨⟩; decide⟩

theorem witness_IllegalTargetAnswered : singles.ledCount ≤ (3#4).toNat ∧ grouped.ledCount ≤ (15#4).toNat := by decide

theorem witness_WriteFormsComplete :
    (Instr.wrIled3 254#8).writeForm? = some (0x09#8, 254#8) ∧ (used grouped true [1#8, 0#8] (oks 1)).image.wf = true ∧
    (0x09#8).toNat < regCount grouped ∧ (0x08#8).toNat < regCount singles ∧ ¬(0x09#8).toNat < regCount singles ∧
    (used grouped true [1#8, 0#8] (oks 1)).effective := by decide +kernel

theorem witness_ResetCtrlCommands :
    (used singles true [1#8, 0#8, 0#8] (oks 1)).image.wf = true ∧
    (used singles true [1#8, 0#8, 0#8] (oks 1)).effective ∧ ¬(used singles true [1#8, 0#8, 0#8] [bad]).effective := by
  decide +kernel

theorem witness_UpdCtrlChangesMaskedBitsOnly :
    (used singles true [1#8, 0#8, 0#8] (oks 1)).image.wf = true ∧
    (used singles true [1#8, 0#8, 0#8] [⟨.err, true⟩]).effective ∧
    ¬(used singles true [1#8, 0#8, 0#8] [bad]).effective := by decide +kernel

theorem witness_WrIled3NeedsChannelThree :
    (used singles true [1#8, 0#8, 0#8] []).config.channelCount = 3 ∧
    (used grouped true [1#8, 0#8] []).config.channelCount = 4 := by decide

theorem witness_SiblingFieldsUnchanged :
    (used grouped true [1#8, 0#8] (oks 1)).image.wf = true ∧
    (ctrlSet 0 2#2 (used grouped true [1#8, 0#8] (oks 1))).raised = none ∧
    (groupCtrl [0, 1, 2] 2#2 (used grouped true [1#8, 0#8] (oks 1))).raised = none ∧ 3 ∉ [0, 1, 2] := by decide +kernel

theorem witness_PowerOffLosesImage :
    (powerDisable (used singles true [1#8, 0#8, 0#8] (oks 1))).1 = .ok ∧ singles.retainOnPowerOff = false ∧
    (powerDisable (used { singles with retainOnPowerOff := true } true [1#8, 0#8, 0#8] (oks 1))).1 = .ok := by
  decide +kernel

theorem witness_BrightnessCodeAndMode : 1 ≤ (1#8).toNat ∧ 1 ≤ (255#8).toNat := by decide

theorem witness_GroupScalingExact : (255 : Nat) ≤ 255 ∧ (2#8).toNat * 64 < 255 ∧ (1#8).toNat * 254 < 255 := by decide

/-- A wake, no power event, and a sleep. -/
theorem witness_SetBrightnessAllOk :
    (∀ on b, (used singles on b (oks 6)).lifecycle = .attached ∧ targetLed (used singles on b (oks 6)) 2#4 = some (.single 2)) ∧
    (used singles false [0#8, 0#8, 0#8] (oks 6)).okFor (2 * (ledOutputs 1#8 (.single 2)).length + 4) ∧
    (used singles false [0#8, 0#8, 0#8] (oks 6)).mustWake [0#8, 0#8, 1#8] = true ∧
    (used singles true [0#8, 0#8, 9#8] (oks 6)).mustSleep [0#8, 0#8, 0#8] = true ∧ singles.retainOnPowerOff = false ∧
    (used grouped true [1#8, 0#8] (oks 10)).okFor (2 * (ledOutputs 1#8 (.group [⟨0, 255, 0⟩, ⟨1, 128, 1⟩, ⟨2, 64, 2⟩])).length + 4) :=
  ⟨fun _ _ => ⟨rfl, rfl⟩, by decide +kernel⟩

/-- The colour group of `grouped`. -/
def rgb : Led := .group [⟨0, 255, 0⟩, ⟨1, 128, 1⟩, ⟨2, 64, 2⟩]

/-- The premises of a SET_BRIGHTNESS with every answer OK on a powered chip. -/
abbrev BrightnessOk (s : State) (t : BitVec 4) (v : Byte) (led : Led) : Prop :=
  s.lifecycle = .attached ∧ cfgValid s.config = true ∧ s.image.wf = true ∧ targetLed s t = some led ∧
    s.poweredFor (s.ledBright.set t.toNat v) ∧ s.okFor (2 * (ledOutputs v led).length + 4)

/-- A wake; a power-down that loses the image; one that keeps it; and nothing active on a powered chip (V8 #10). -/
theorem witness_SetBrightnessRegisters :
    BrightnessOk (used grouped false [0#8, 0#8] (oks 10)) 0#4 1#8 rgb ∧
    (used grouped false [0#8, 0#8] (oks 10)).keepsImage [1#8, 0#8] ∧
    BrightnessOk (used grouped true [9#8, 0#8] (oks 10)) 0#4 0#8 rgb ∧
    ¬(used grouped true [9#8, 0#8] (oks 10)).keepsImage [0#8, 0#8] ∧
    BrightnessOk (used { grouped with retainOnPowerOff := true } true [9#8, 0#8] (oks 10)) 0#4 0#8 rgb ∧
    (used { grouped with retainOnPowerOff := true } true [9#8, 0#8] (oks 10)).keepsImage [0#8, 0#8] ∧
    BrightnessOk (used singles false [0#8, 0#8, 0#8] (oks 6)) 2#4 0#8 (.single 2) ∧
    (used singles false [0#8, 0#8, 0#8] (oks 6)).keepsImage [0#8, 0#8, 0#8] := by decide +kernel

/-- Only LED 0 is active. -/
theorem only_first (x : Byte) (l : Nat) (b : Byte) (hl : l ≠ 0) (h : [x, 0#8, 0#8][l]? = some b) : b = 0#8 := by
  match l with
  | 0 => exact absurd rfl hl
  | 1 => simpa using h.symm
  | 2 => simpa using h.symm
  | _ + 3 => simp at h

theorem witness_LastLedOffPowersDown :
    (used singles true [10#8, 0#8, 0#8] (oks 4)).lifecycle = .attached ∧
    targetLed (used singles true [10#8, 0#8, 0#8] (oks 4)) 0#4 = some (.single 0) ∧
    (used singles true [10#8, 0#8, 0#8] (oks 4)).ledBright[(0#4).toNat]? = some 10#8 ∧
    (∀ l b, l ≠ (0#4).toNat → (used singles true [10#8, 0#8, 0#8] (oks 4)).ledBright[l]? = some b → b = 0#8) ∧
    (used singles true [10#8, 0#8, 0#8] (oks 4)).okFor (2 * (ledMembers (.single 0)).length + 2) :=
  ⟨rfl, rfl, rfl, only_first 10#8, by decide +kernel⟩

/-- SET_BRIGHTNESS, and SET_BLINK on the general, always-on and never-on paths, with a failed enable and a failed wake. -/
theorem witness_PowerUpFailureEndsRequest :
    (∀ d, (used singles false [9#8, 9#8, 0#8] d).lifecycle = .attached ∧
      targetLed (used singles false [9#8, 9#8, 0#8] d) 0#4 = some (.single 0)) ∧
    (defaultImage singles).wf = true ∧
    (∀ i ∈ [Instr.setBrightness 0#4 10#8 0#64 0#64, .setBlink 0#4 5#64 5#64, .setBlink 0#4 5#64 0#64,
        .setBlink 0#4 0#64 5#64, .setBlink 0#4 0#64 0#64], i.target? = some 0#4 ∧
      (used singles false [9#8, 9#8, 0#8] [bad]).mustWake (i.newBright [9#8, 9#8, 0#8]) = true) ∧
    ((used singles false [9#8, 9#8, 0#8] [bad]).drawAt 0).result = .err ∧
    ((used singles false [9#8, 9#8, 0#8] (oks 1 ++ [bad])).drawAt 0).result = .ok ∧
    ((used singles false [9#8, 9#8, 0#8] (oks 1 ++ [bad])).drawAt 1).result = .err :=
  ⟨fun _ => ⟨rfl, rfl⟩, by decide +kernel⟩

/-- The premises of a SET_BRIGHTNESS whose body fails at its transaction `k`, `w` answers after its start. -/
abbrev BodyFails (s : State) (t : BitVec 4) (v : Byte) (led : Led) (w k : Nat) : Prop :=
  s.lifecycle = .attached ∧ cfgValid s.config = true ∧ s.image.wf = true ∧ targetLed s t = some led ∧
    s.poweredFor (s.ledBright.set t.toNat v) ∧ w = s.wakeDraws (s.ledBright.set t.toNat v) ∧
    k < 2 * (ledOutputs v led).length ∧ s.okFor (w + k) ∧ (s.drawAt (w + k)).result = .err

/-- After a wake, at the third transaction (V7 #13), and on an enabled chip at both ends of the body. -/
theorem witness_BodyBusErrorStopsWithoutRollback :
    BodyFails (used grouped false [0#8, 0#8] (oks 4 ++ [bad])) 0#4 255#8 rgb 2 2 ∧
    BodyFails (used grouped true [1#8, 0#8] [bad]) 0#4 0#8 rgb 0 0 ∧
    BodyFails (used grouped true [1#8, 0#8] (oks 5 ++ [⟨.err, true⟩])) 0#4 9#8 rgb 0 5 ∧
    BodyFails (used singles true [1#8, 0#8, 0#8] (oks 1 ++ [bad])) 2#4 9#8 (.single 2) 0 1 := by decide +kernel

theorem witness_PowerDownFailuresSwallowed :
    targetLed (used singles true [10#8, 0#8, 0#8] (oks 2 ++ [bad, bad])) 0#4 = some (.single 0) ∧
    (∀ l b, l ≠ (0#4).toNat → (used singles true [10#8, 0#8, 0#8] (oks 2 ++ [bad, bad])).ledBright[l]? = some b → b = 0#8) ∧
    (used singles true [10#8, 0#8, 0#8] (oks 2 ++ [bad, bad])).okFor (2 * (ledMembers (.single 0)).length) :=
  ⟨rfl, only_first 10#8, by decide +kernel⟩

theorem witness_EnabledMatchesActivity :
    ∃ u, exec (.setBrightness 0#4 1#8 0#64 0#64) (used singles false [0#8, 0#8, 0#8] (oks 4)) = .next u ∧
      (used singles false [0#8, 0#8, 0#8] (oks 4)).Answers u ⟨.ok, 0#64, 0#64⟩ ∧
      ∀ e ∈ (used singles false [0#8, 0#8, 0#8] (oks 4)).newEvents u, e.powerError = false :=
  ⟨_, rfl, rfl, by decide +kernel⟩

/-- Both ends of each row of R84's table. -/
theorem witness_StepCountByRequestedSum :
    (2 ≤ 2 ∧ 256 ≤ 256) ∧ (257 ≤ 257 ∧ 384 ≤ 384) ∧ (1 ≤ 1 ∧ 256 + 128 * (1 - 1) + 1 ≤ 257 ∧ 384 ≤ 256 + 128 * 1) ∧
    (125 ≤ 125 ∧ 256 + 128 * (125 - 1) + 1 ≤ 16129 ∧ 16256 ≤ 256 + 128 * 125) ∧ 16257 ≤ 16257 ∧ 256 < 257 := by decide

theorem witness_QuantizeResultsFit : 1 ≤ 1 ∧ 1 ≤ (256 : Nat) := by decide

theorem witness_RequantizationGrowsOneStep : 1 ≤ 500 ∧ 1 ≤ (16383 : Nat) := by decide

theorem witness_TimingExactInsideBand :
    BitVec.ofNat 64 (2 ^ 56 - 1) ≠ 0#64 ∧ (BitVec.ofNat 64 (2 ^ 56 - 1)).toNat < 2 ^ 56 ∧
    (BitVec.ofNat 64 (2 ^ 56 - 1)).toNat + (1#64).toNat < 2 ^ 64 ∧ 1#64 ≠ 0#64 := by decide

theorem witness_BlinkGeneralAllOk :
    (used singles true [100#8, 0#8, 0#8] (oks 7)).lifecycle = .attached ∧
    targetLed (used singles true [100#8, 0#8, 0#8] (oks 7)) 0#4 = some (.single 0) ∧ 1#64 ≠ 0#64 ∧
    (used singles true [100#8, 0#8, 0#8] (oks 7)).okFor 7 := by decide +kernel

/-- The premises of a SET_BLINK with `n` answers OK on a powered chip. -/
abbrev BlinkOk (s : State) (t : BitVec 4) (led : Led) (n : Nat) : Prop :=
  s.lifecycle = .attached ∧ cfgValid s.config = true ∧ s.image.wf = true ∧ targetLed s t = some led ∧
    s.poweredFor s.ledBright ∧ s.okFor n

/-- A wake; nothing active on a powered chip, which loses the image, keeps it, or was disabled already (V8 #10). -/
theorem witness_BlinkGeneralRegisters :
    BlinkOk (used singles false [100#8, 0#8, 0#8] (oks 7)) 0#4 (.single 0) 7 ∧
    (used singles false [100#8, 0#8, 0#8] (oks 7)).keepsImage [100#8, 0#8, 0#8] ∧
    BlinkOk (used grouped true [0#8, 0#8] (oks 7)) 0#4 rgb 7 ∧
    ¬(used grouped true [0#8, 0#8] (oks 7)).keepsImage [0#8, 0#8] ∧
    BlinkOk (used { grouped with retainOnPowerOff := true } true [0#8, 0#8] (oks 7)) 0#4 rgb 7 ∧
    (used { grouped with retainOnPowerOff := true } true [0#8, 0#8] (oks 7)).keepsImage [0#8, 0#8] ∧
    BlinkOk (used singles false [0#8, 0#8, 0#8] (oks 7)) 0#4 (.single 0) 7 ∧
    (used singles false [0#8, 0#8, 0#8] (oks 7)).keepsImage [0#8, 0#8, 0#8] := by decide +kernel

/-- The premises of a SET_BLINK whose body fails at its transaction `k`, `w` answers after its start. -/
abbrev BlinkFails (s : State) (t : BitVec 4) (led : Led) (w k : Nat) : Prop :=
  s.lifecycle = .attached ∧ s.image.wf = true ∧ targetLed s t = some led ∧ s.poweredFor s.ledBright ∧
    w = s.wakeDraws s.ledBright ∧ s.okFor (w + k) ∧ (s.drawAt (w + k)).result = .err

/-- Each transaction of the general path, the first of either path, and one after a wake. -/
theorem witness_BlinkBusErrorLeavesPartialUpdate :
    BlinkFails (used singles true [100#8, 0#8, 0#8] [bad]) 0#4 (.single 0) 0 0 ∧
    BlinkFails (used singles true [100#8, 0#8, 0#8] (oks 1 ++ [⟨.err, true⟩])) 0#4 (.single 0) 0 1 ∧
    BlinkFails (used grouped true [100#8, 0#8] (oks 2 ++ [bad])) 0#4 rgb 0 2 ∧
    BlinkFails (used grouped false [100#8, 0#8] (oks 2 ++ [bad])) 0#4 rgb 2 0 := by decide +kernel

theorem witness_BlinkAlwaysOnAllOk :
    (used singles true [100#8, 0#8, 0#8] (oks 5)).lifecycle = .attached ∧
    targetLed (used singles true [100#8, 0#8, 0#8] (oks 5)) 0#4 = some (.single 0) ∧ 1#64 ≠ 0#64 ∧
    (used singles true [100#8, 0#8, 0#8] (oks 5)).okFor 5 := by decide +kernel

/-- The same cases as for the general path. -/
theorem witness_BlinkAlwaysOnRegisters :
    BlinkOk (used singles false [100#8, 0#8, 0#8] (oks 5)) 1#4 (.single 1) 5 ∧
    (used singles false [100#8, 0#8, 0#8] (oks 5)).keepsImage [100#8, 0#8, 0#8] ∧
    BlinkOk (used grouped true [0#8, 0#8] (oks 5)) 0#4 rgb 5 ∧
    ¬(used grouped true [0#8, 0#8] (oks 5)).keepsImage [0#8, 0#8] ∧
    BlinkOk (used { grouped with retainOnPowerOff := true } true [0#8, 0#8] (oks 5)) 0#4 rgb 5 ∧
    (used { grouped with retainOnPowerOff := true } true [0#8, 0#8] (oks 5)).keepsImage [0#8, 0#8] ∧
    BlinkOk (used singles false [0#8, 0#8, 0#8] (oks 5)) 1#4 (.single 1) 5 := by decide +kernel

theorem witness_BlinkNeverOnIsBrightnessZero :
    1#64 ≠ 0#64 ∧ (used singles true [100#8, 0#8, 0#8] []).lifecycle = .attached ∧ (2#4).toNat < singles.ledCount := by
  decide

/-- One witness for each row of R92's table. -/
theorem witness_BlinkResponseTimes :
    after (exec (.setBlink 0#4 700#64 300#64) (used singles true [100#8, 0#8, 0#8] (oks 3))) State.responses =
      some [⟨.ok, 805#64, 347#64⟩] ∧
    after (exec (.setBlink 0#4 0#64 0#64) (used singles true [100#8, 0#8, 0#8] (oks 3))) State.responses =
      some [⟨.ok, 576#64, 576#64⟩] ∧
    after (exec (.setBlink 0#4 500#64 500#64) (used singles true [100#8, 0#8, 0#8] [bad])) State.responses =
      some [⟨.busError, 500#64, 500#64⟩] ∧
    after (exec (.setBlink 0#4 300#64 0#64) (used singles true [100#8, 0#8, 0#8] (oks 1))) State.responses =
      some [⟨.ok, 300#64, 0#64⟩] ∧
    after (exec (.setBlink 5#4 10#64 20#64) (used singles true [100#8, 0#8, 0#8] [])) State.responses =
      some [⟨.illegalRequest, 10#64, 20#64⟩] := by decide +kernel

theorem witness_ValidConfigBoundsLedCount :
    cfgValid singles = true ∧ cfgValid grouped = true ∧
    cfgValid ⟨4, [.single 3, .single 0, .single 1, .single 2], Vector.replicate 10 0#8, 0, false, false⟩ = true ∧
    cfgValid ⟨3, [], Vector.replicate 10 0#8, 0, false, false⟩ = true := by decide +kernel

theorem witness_AttachCompletes :
    (State.start singles true).lifecycle = .uninit ∧ cfgValid singles = true ∧
    ({ State.start singles true with draws := oks 1 }.drawAt 0).result = .ok ∧
    { State.start singles true with draws := oks 1 }.effective ∧
    ¬{ State.start singles false with draws := oks 1 }.effective := by decide +kernel

theorem witness_AttachFailureKeepsBlockState :
    ({ State.start singles true with draws := [bad] }.drawAt 0).result = .err ∧
    cfgValid ⟨3, [.single 0, .single 0], Vector.replicate 10 0#8, 0, false, false⟩ = false ∧
    ({ State.start singles true with draws := oks 1 }.drawAt 0).result = .ok ∧
    { State.start singles true with lifecycle := .removed }.lifecycle = .removed := by decide +kernel

/-- The image lost, the image reset, and the two illegal states. -/
theorem witness_DetachCompletes :
    (used singles true [1#8, 0#8, 0#8] (oks 2)).lifecycle = .attached ∧
    (used singles true [1#8, 0#8, 0#8] (oks 2)).enabled = true ∧
    ((used singles true [1#8, 0#8, 0#8] (oks 2)).drawAt 1).result = .ok ∧
    ((used singles true [1#8, 0#8, 0#8] (oks 1 ++ [bad])).drawAt 1).result = .err ∧
    (used singles true [1#8, 0#8, 0#8] (oks 1 ++ [bad])).effective ∧
    ¬(used singles true [1#8, 0#8, 0#8] [bad, bad]).effective ∧
    (State.start singles true).lifecycle = .uninit := by decide +kernel

theorem witness_ShutdownCompletes :
    (used singles true [1#8, 0#8, 0#8] (oks 1)).lifecycle = .attached ∧
    (used singles true [1#8, 0#8, 0#8] (oks 1)).effective ∧ ¬(used singles true [1#8, 0#8, 0#8] [bad]).effective ∧
    (State.start singles true).lifecycle ≠ .attached := by decide +kernel

theorem witness_AfterShutdownOnlyDetach :
    (∃ u, exec (.shutdown 0#64 0#64) (used singles true [1#8, 0#8, 0#8] (oks 1)) = .next u) ∧
    (used singles true [1#8, 0#8, 0#8] (oks 1)).effective ∧
    { State.start singles true with lifecycle := .shutdown }.lifecycle = .shutdown ∧
    (Instr.attach 0#64 0#64).isRequest = true ∧ ∀ on off, Instr.attach 0#64 0#64 ≠ .detach on off :=
  ⟨⟨_, rfl⟩, by decide +kernel, rfl, rfl, fun _ _ h => nomatch h⟩

theorem witness_ChipPowerFollowsCommands :
    (∃ u, exec (.wrPeriod 7#8) (used singles true [1#8, 0#8, 0#8] (oks 1)) = .next u) ∧
    (Instr.wrPeriod 7#8).writeForm? = some (0x01#8, 7#8) ∧ (0x01#8 : Byte) ≠ 0x00#8 ∧
    (∃ u, exec (.updCtrl 3#8 1#8) (used singles true [1#8, 0#8, 0#8] (oks 1)) = .next u) ∧
    (State.start singles true).lifecycle = .uninit ∧
    ({ State.start singles true with draws := oks 1 }.drawAt 0).result = .ok :=
  ⟨⟨_, rfl⟩, rfl, by decide, ⟨_, rfl⟩, rfl, rfl⟩

/-- The chip of `used singles` with the period 7, the duty 128 and both channels 0 and 1 in blink pattern 1. -/
def blinking (d : List Draw) : State :=
  { used singles true [100#8, 0#8, 0#8] d with
    image := ((((defaultImage singles).write 1 (RegVal.full 7#8)).write 2 (RegVal.full 128#8)).write 4
      (RegVal.full 0x0A#8)).write 6 (RegVal.full 0#8) }

theorem witness_BlinkTimingIsShared :
    (blinking []).channelOutput 0 = .blink (some 1152) (some 128#8) (some 0#8) ∧
    (blinking []).channelOutput 1 = .blink (some 1152) (some 128#8) (some 0xA5#8) ∧
    (blinking (oks 3)).image.wf = true ∧ (blinking (oks 3)).active = true ∧ (blinking (oks 3)).okFor 3 ∧
    targetLed (blinking (oks 3)) 0#4 = some (.single 0) ∧ 1 ∉ ledMembers (.single 0) ∧ 1 < singles.channelCount ∧
    (blinking (oks 3)).channelMode 1 = some 2#2 ∧ (blinking (oks 3)).chipMode = .awake := by decide +kernel

theorem witness_AlwaysOnLightsBrightnessZero :
    targetLed (blinking (oks 1)) 0#4 = some (.single 0) ∧ (blinking (oks 1)).active = true ∧ (blinking (oks 1)).okFor 1 ∧
    0 ∈ ledMembers (.single 0) ∧ (blinking (oks 1)).image.wf = true ∧ cfgValid singles = true ∧
    (blinking (oks 1)).reg (6 + 0) = RegVal.full (iledCode 0#8) := by decide +kernel

/-- On a chip that stays lit, and on one that the request powers down. -/
theorem witness_BrightnessStopsBlink :
    BrightnessOk (blinking (oks 6)) 0#4 50#8 (.single 0) ∧ (blinking (oks 6)).keepsImage [50#8, 0#8, 0#8] ∧
    BrightnessOk (blinking (oks 6)) 0#4 0#8 (.single 0) ∧ (blinking (oks 6)).mustSleep [0#8, 0#8, 0#8] = true ∧
    0 ∈ ledMembers (.single 0) := by decide +kernel

theorem witness_EnabledButAsleepStaysDark :
    (∃ u, exec (.setBrightness 0#4 5#8 0#64 0#64)
        { used singles true [0#8, 0#8, 0#8] (oks 2) with chipMode := .asleep } = .next u ∧ u.active = true) ∧
    cfgValid singles = true ∧
    ((used singles true [0#8, 0#8, 0#8] (oks 1 ++ [bad])).drawAt 0).result = .ok ∧
    ((used singles true [0#8, 0#8, 0#8] (oks 1 ++ [bad])).drawAt 1).result = .err :=
  ⟨⟨_, rfl, rfl⟩, by decide +kernel⟩

/-- A disabled, unpowered machine, all its LEDs off. -/
def unlit (p : Params) (b : List Byte) (d : List Draw) : State := { used p false b d with psrcOn := false }

/-- A single LED and a group; one effect applied, the other dropped. -/
theorem witness_WritesToDisabledChipAreDrawn :
    (∀ b d, (unlit singles b d).lifecycle = .attached ∧ (unlit singles b d).enabled = false ∧
      (unlit singles b d).psrcOn = false) ∧
    (unlit singles [0#8, 0#8, 0#8] (oks 3)).active = false ∧ (unlit singles [0#8, 0#8, 0#8] (oks 3)).image.wf = true ∧
    (unlit singles [0#8, 0#8, 0#8] (oks 3)).okFor 3 ∧ cfgValid singles = true ∧
    targetLed (unlit singles [0#8, 0#8, 0#8] (oks 3)) 2#4 = some (.single 2) ∧
    (unlit grouped [0#8, 0#8] (oks 6)).active = false ∧ cfgValid grouped = true ∧
    (unlit grouped [0#8, 0#8] (oks 6)).image.wf = true ∧
    targetLed (unlit grouped [0#8, 0#8] (oks 6)) 0#4 = some rgb ∧ (ledMembers rgb)[2]? = some 2 ∧
    (unlit grouped [0#8, 0#8] (oks 6)).okFor (2 * (ledMembers rgb).length) ∧
    (unlit singles [0#8, 0#8, 0#8] [⟨.ok, true⟩, ⟨.ok, false⟩]).okFor (2 * (ledMembers (.single 2)).length) ∧
    ((unlit singles [0#8, 0#8, 0#8] [⟨.ok, true⟩, ⟨.ok, false⟩]).drawAt 0).applied = true ∧
    ((unlit singles [0#8, 0#8, 0#8] [⟨.ok, true⟩, ⟨.ok, false⟩]).drawAt 1).applied = false :=
  ⟨fun _ _ => ⟨rfl, rfl, rfl⟩, by decide +kernel⟩

theorem witness_OutputFollowsControlField :
    (blinking []).reg 1 = RegVal.full 7#8 ∧ (blinking []).reg 2 = RegVal.full 128#8 ∧
    (blinking []).reg (6 + 0) = RegVal.full 0#8 ∧ (blinking []).psrcOn = true ∧ (blinking []).chipMode = .awake ∧
    (blinking []).channelMode 0 = some 2#2 ∧ (blinking []).channelMode 2 = some 0#2 ∧ 2 < singles.channelCount ∧
    1 ≤ (7#8).toNat ∧ (7#8).toNat ≤ 126 ∧ 1 ≤ (126#8).toNat ∧ (126#8).toNat ≤ 126 ∧
    { blinking [] with psrcOn := false }.chipPower = .unpowered ∧
    { blinking [] with chipMode := .asleep }.chipPower = .asleep := by decide +kernel

/-- The start of any block meets the invariant; so the next two witnesses are states that step. -/
theorem start_inv (p : Params) (power : Bool) : (State.start p power).Inv where
  imageWf := rfl
  bitsKnown _ := by simp [State.start, State.reg, RegImage.read, Memory.read, Memory.unlisted]
  registersOnly _ _ := rfl
  ledLength := by simp [State.start]
  chLength := by simp [State.start]
  configChecked h := absurd rfl h
  enabledWhere h := nomatch h
  enabledPowered h := nomatch h
  enabledMode h := nomatch h
  traceLegal _ h := nomatch h
  hostOnly _ h := nomatch h

/-- An ATTACH waits at the start. -/
theorem attach_waits_inv (d : List Draw) :
    { State.start singles true with pending := [.request 0x0003#144], draws := d }.Inv :=
  { start_inv singles true with hostOnly := by simp [PortWord.isRequest] }

theorem witness_StepKeepsInvariant :
    ∃ s u : State, s.Inv ∧ step s = .next u ∧ u.lifecycle = .attached :=
  ⟨_, _, attach_waits_inv (oks 1), rfl, rfl⟩

theorem witness_StepKeepsRegisterRanges : ∃ s u : State, s.Inv ∧ s.RegsInv ∧ step s = .next u ∧ u.lifecycle = .attached :=
  ⟨_, _, attach_waits_inv (oks 1),
    { resetCtrl := .inl rfl, period := .inl rfl, duty := .inl rfl, pwm2 := .inl rfl, riseFall := .inl rfl
      ctrlWhole := fun _ _ => .inl (by simp [State.start, State.reg, RegImage.read, Memory.read, Memory.unlisted])
      ctrlFields := fun c _ h => by
        simp [State.start, State.channelMode, State.reg, RegImage.read, Memory.read, Memory.unlisted] at h
      ctrlSpare := fun c _ _ f h => by
        simp [State.start, State.channelMode, State.reg, RegImage.read, Memory.read, Memory.unlisted] at h
      iled := fun _ _ => .inl rfl }, rfl, rfl⟩

theorem witness_RequestAppendsEventsAndOneResponse : (Instr.setBlink 0#4 1#64 1#64).isRequest = true := rfl

theorem witness_BlockNeverReadsTheChip :
    (used singles true [1#8, 0#8, 0#8] (oks 2)).forgetChip =
      { used singles true [1#8, 0#8, 0#8] (oks 2) with psrcOn := false, chipMode := .asleep }.forgetChip ∧
    used singles true [1#8, 0#8, 0#8] (oks 2) ≠
      { used singles true [1#8, 0#8, 0#8] (oks 2) with psrcOn := false, chipMode := .asleep } := by decide +kernel

theorem witness_OtherChannelsUntouched :
    ∃ u, exec (.setBrightness 0#4 5#8 0#64 0#64) (used singles true [1#8, 0#8, 0#8] (oks 1 ++ [bad])) = .next u ∧
      (∀ e ∈ (used singles true [1#8, 0#8, 0#8] (oks 1 ++ [bad])).newEvents u, e.powerOff = false) ∧
      targetLed (used singles true [1#8, 0#8, 0#8] (oks 1 ++ [bad])) 0#4 = some (.single 0) ∧ cfgValid singles = true ∧
      (defaultImage singles).wf = true ∧ 1 < singles.channelCount ∧ 1 ∉ ledMembers (.single 0) :=
  ⟨_, rfl, by decide +kernel⟩

theorem witness_BrightnessWrittenOnlyByItsRequests :
    (∃ u, exec (.setBlink 0#4 1#64 1#64) (used singles true [1#8, 0#8, 0#8] (oks 3)) = .next u) ∧
    (∀ on off, Instr.setBlink 0#4 1#64 1#64 ≠ .attach on off) ∧
    (∀ t, (Instr.setBlink 0#4 1#64 1#64).target? = some t → 1 ≠ t.toNat) ∧
    ∀ t led, (Instr.setBlink 0#4 1#64 1#64).target? = some t →
      targetLed (used singles true [1#8, 0#8, 0#8] (oks 3)) t = some led → 1 ∉ ledMembers led :=
  ⟨⟨_, rfl⟩, by simp, by rintro t ⟨⟩; decide, by
    rintro t led ⟨⟩ h
    obtain rfl : Led.single 0 = led := by simpa [targetLed, used, State.start, singles] using h
    decide⟩

theorem witness_SettleWaitOnlyInAttach :
    ∃ u, exec (.attach 0#64 0#64) { State.start singles true with draws := oks 1 } = .next u ∧
      .wait 300 ∈ { State.start singles true with draws := oks 1 }.newEvents u :=
  ⟨_, rfl, by decide +kernel⟩

end Sys2Proof.Tests
end

section
/-! PROOFS. What a step does with its word, what a request with a target does after its checks, and the statements
about the brightnesses and `ENABLED` (10_state.md R16, R18, R21). -/

namespace Sys2Proof.Machine

open Sys2Proof

/-! ### The step -/

theorem step_of_decoded {s : State} {w : PortWord} {rest : List PortWord} {i : Instr} (hp : s.pending = w :: rest)
    (hd : decode w = .ok i) : step s = exec i (s.setPending rest) := by
  simp only [step, fetchWord, hp, hd]

theorem step_of_undecodable {s : State} {w : PortWord} {rest : List PortWord} {e : DecodeError}
    (hp : s.pending = w :: rest) (hd : decode w = .error e) : step s = .refused (.notABusForm e) := by
  simp only [step, fetchWord, hp, hd]

theorem step_of_idle {s : State} (hp : s.pending = []) : step s = .next s := by
  simp only [step, fetchWord, hp]

/-- Settles O1, by the three equations of the step. -/
theorem stepRunsDecodedInstruction : Obligations.StepRunsDecodedInstruction :=
  ⟨fun _ _ _ hp => ⟨fun _ hd => step_of_decoded hp hd, fun _ hd => step_of_undecodable hp hd⟩,
    fun _ hp => step_of_idle hp, fun _ _ _ => rfl⟩

/-! ### Requests with a target -/

/-- R18: the requests that set the brightness of their target, SET_BRIGHTNESS and SET_BLINK's never-on path. -/
def setsBrightness : Instr → Prop
  | .setBrightness _ _ _ _ => True
  | .setBlink _ on off => on = 0#64 ∧ off ≠ 0#64
  | _ => False

/-- What the request `i` needs of the body that GATED runs on the LED `led` (R79). -/
structure GatedBody (i : Instr) (led : Led) (body : State → Micro) : Prop where
  acts : ∀ s, Acts led s (body s).state
  enabled : ∀ s, (body s).state.enabled = s.enabled
  chBright : ¬setsBrightness i → ∀ s, (body s).state.chBright = s.chBright

theorem ledWrite_gatedBody {i : Instr} (hi : setsBrightness i) (led : Led) (v : Byte) :
    GatedBody i led (ledWrite led v) where
  acts := ledWrite_acts led v
  enabled _ := writeChannels_enabled _ _
  chBright hn := absurd hi hn

theorem groupCtrl_gatedBody (i : Instr) (led : Led) : GatedBody i led (groupCtrl (ledMembers led) 1#2) where
  acts s := groupCtrl_acts led 1#2 s (by decide)
  enabled s := by simp
  chBright _ s := by simp

theorem blinkWrites_enabled (cs : List Nat) (g : Timing) (s : State) :
    (blinkWrites cs g s).state.enabled = s.enabled := by
  rcases blinkWrites_cases cs g s with ⟨_, h⟩ | ⟨_, _, h⟩ | ⟨_, _, h⟩ <;> simp [h]

theorem blinkWrites_chBright (cs : List Nat) (g : Timing) (s : State) :
    (blinkWrites cs g s).state.chBright = s.chBright := by
  rcases blinkWrites_cases cs g s with ⟨_, h⟩ | ⟨_, _, h⟩ | ⟨_, _, h⟩ <;> simp [h]

/-- The clamp of R83 keeps the step count in 1..126 whatever the sum. -/
theorem quantizedSteps_bounds (sum : Nat) : 1 ≤ quantizedSteps sum ∧ quantizedSteps sum ≤ 126 := by
  unfold quantizedSteps clamp
  omega

/-- R85: a step count of a blink request is in 1..126, inside the exactness band and outside it. -/
theorem blinkTiming_steps_bounds (on off : Millis) (s : State) :
    1 ≤ (blinkTiming on off s).steps.toNat ∧ (blinkTiming on off s).steps.toNat ≤ 126 := by
  unfold blinkTiming
  split
  · have h := quantizedSteps_bounds (on.toNat + off.toNat)
    simp only [quantize, BitVec.toNat_ofNat]
    omega
  · simp only [BitVec.toNat_ofNat]
    omega

theorem blinkWrites_gatedBody (i : Instr) (led : Led) (on off : Millis) (s : State) :
    GatedBody i led (blinkWrites (ledMembers led) (blinkTiming on off s)) where
  acts t :=
    have ⟨h1, h2⟩ := blinkTiming_steps_bounds on off s
    blinkWrites_acts led _ t h1 h2
  enabled t := blinkWrites_enabled _ _ t
  chBright _ t := blinkWrites_chBright _ _ t

/-- What a request with a target runs after its checks: its own update of `LED_BRIGHT`, then the gated body (R79, R80). -/
def gatedRequest (i : Instr) (body : State → Micro) (s : State) : Micro :=
  gated s.ledBright (i.newBright s.ledBright) body (s.setLedBright (i.newBright s.ledBright))

/-- SET_BLINK after its checks is a gated body on each of its paths (R89 to R91). -/
theorem setBlinkBody_gated (t : BitVec 4) (led : Led) (on off : Millis) (s : State) :
    ∃ body a b c d, GatedBody (.setBlink t on off) led body ∧
      setBlinkBody t led on off s = (gatedRequest (.setBlink t on off) body s).conclude a b c d := by
  rcases setBlinkBody_cases t led on off s with ⟨hon, hoff, h⟩ | ⟨hon, hoff, h⟩ | ⟨hon, hoff, h⟩ | ⟨hon, hoff, h⟩
  · exact ⟨_, _, _, _, _, groupCtrl_gatedBody _ led, by
      rw [h]; simp only [gatedRequest, Instr.newBright, hon, false_and, if_false]; rfl⟩
  · exact ⟨_, _, _, _, _, ledWrite_gatedBody (i := .setBlink t on off) ⟨hon, hoff⟩ led 0#8, by
      rw [h]; simp only [gatedRequest, Instr.newBright, hon, hoff, ne_eq, not_false_eq_true, and_self, if_true]; rfl⟩
  · exact ⟨_, _, _, _, _, blinkWrites_gatedBody _ led on off s, by
      rw [h]; simp only [gatedRequest, Instr.newBright, hon, false_and, if_false]; rfl⟩
  · exact ⟨_, _, _, _, _, blinkWrites_gatedBody _ led 500#64 500#64 s, by
      rw [h]; simp only [gatedRequest, Instr.newBright, hoff, ne_eq, not_true_eq_false, and_false, if_false]; rfl⟩

/-- Everything a request with a target can do: it is illegal, or it runs a gated body on its LED and answers. -/
theorem targetRequest_cases {i : Instr} {t : BitVec 4} {s u : State} (ht : i.target? = some t)
    (h : exec i s = .next u) :
    u = illegalRequest i.onMs i.offMs s ∨
    ∃ led body a b c d, s.lifecycle = .attached ∧ targetLed s t = some led ∧ GatedBody i led body ∧
      u = (gatedRequest i body s).conclude a b c d := by
  cases i with
  | setBrightness t' v on off =>
    obtain rfl : t' = t := Option.some.inj ht
    obtain rfl := Host.Outcome.next.inj h
    by_cases hl : mayUse s.lifecycle = true
    · cases hled : targetLed s t' with
      | none => simp [hl, Instr.onMs, Instr.offMs]
      | some led =>
        exact .inr ⟨led, _, _, _, _, _, by simpa [mayUse] using hl, rfl,
          ledWrite_gatedBody (i := .setBrightness t' v on off) trivial led v, by simp only [hl, if_true]; rfl⟩
    · simp [hl, Instr.onMs, Instr.offMs]
  | setBlink t' on off =>
    obtain rfl : t' = t := Option.some.inj ht
    obtain rfl := Host.Outcome.next.inj h
    by_cases hl : mayUse s.lifecycle = true
    · cases hled : targetLed s t' with
      | none => simp [hl, Instr.onMs, Instr.offMs]
      | some led =>
        obtain ⟨body, a, b, c, d, hbody, heq⟩ := setBlinkBody_gated t' led on off s
        exact .inr ⟨led, body, a, b, c, d, by simpa [mayUse] using hl, rfl, hbody, by
          simpa only [hl, hled, if_true] using heq⟩
    · simp [hl, Instr.onMs, Instr.offMs]
  | _ => cases ht

theorem gatedRequest_acts {i : Instr} {led : Led} {body : State → Micro} (hb : GatedBody i led body) (s : State) :
    Acts led (s.setLedBright (i.newBright s.ledBright)) (gatedRequest i body s).state :=
  gated_acts hb.acts

/-! ### Who writes the brightnesses (R18) -/

/-- A property that the power-up, the body and the power-down keep is kept by GATED (R79). -/
theorem gated_keeps (P : State → Prop) {bOld bNew : List Byte} {body : State → Micro} {s : State}
    (hup : ∀ t, P t → P (ensureEnabled t).state) (hbody : ∀ t, P t → P (body t).state)
    (hdown : ∀ t, P t → P (ensureDisabled t)) (hs : P s) : P (gated bOld bNew body s).state := by
  obtain ⟨up, hdef, hg⟩ := gated_cases bOld bNew body s
  have h1 : P up.state := by
    rw [hdef]
    split
    · exact hup s hs
    · exact hs
  rcases hg with ⟨_, _, hg⟩ | ⟨_, _, _, hg⟩ | ⟨_, _, hg⟩ <;> rw [hg]
  · exact h1
  · exact hbody _ h1
  · rw [done_state]
    split
    · exact hbody _ h1
    · exact hdown _ (hbody _ h1)

theorem newBright_of_not_setsBrightness {i : Instr} (h : ¬setsBrightness i) (b : List Byte) : i.newBright b = b := by
  cases i with
  | setBrightness => exact absurd trivial h
  | setBlink t on off => exact if_neg h
  | _ => rfl

/-- A request's own update of `LED_BRIGHT` changes at most the target's entry. -/
theorem newBright_getElem?_of_ne {i : Instr} {t : BitVec 4} (ht : i.target? = some t) {l : Nat} (hl : l ≠ t.toNat)
    (b : List Byte) : (i.newBright b)[l]? = b[l]? := by
  cases i with
  | setBrightness t' v on off =>
    obtain rfl : t' = t := Option.some.inj ht
    exact List.getElem?_set_ne hl.symm
  | setBlink t' on off =>
    obtain rfl : t' = t := Option.some.inj ht
    simp only [Instr.newBright]
    split
    · exact List.getElem?_set_ne hl.symm
    · rfl
  | _ => cases ht

/-- After its checks, a request with a target leaves in `LED_BRIGHT` its own update, and in `CH_BRIGHT` every channel
that is no member as it was; without that update it writes neither. -/
theorem gatedRequest_brightness {i : Instr} {led : Led} {body : State → Micro} (hb : GatedBody i led body) (s : State) :
    (gatedRequest i body s).state.ledBright = i.newBright s.ledBright ∧
    (∀ c, c ∉ ledMembers led → (gatedRequest i body s).state.chBright[c]? = s.chBright[c]?) ∧
    (¬setsBrightness i → (gatedRequest i body s).state.chBright = s.chBright) := by
  obtain ⟨_, _, hled, _, _, hch, _⟩ := acts_frame (gatedRequest_acts hb s)
  refine ⟨hled, hch, fun hn => ?_⟩
  exact gated_keeps (fun t => t.chBright = s.chBright) (fun t ht => by rw [ensureEnabled_chBright, ht])
    (fun t ht => by rw [hb.chBright hn, ht]) (fun t ht => by rw [ensureDisabled_chBright, ht]) rfl

/-- Of the instructions without a target only ATTACH writes a brightness. -/
theorem untargeted_brightness {i : Instr} {s u : State} (ht : i.target? = none) (hi : ∀ on off, i ≠ .attach on off)
    (h : exec i s = .next u) : u.ledBright = s.ledBright ∧ u.chBright = s.chBright := by
  cases i with
  | setBrightness => cases ht
  | setBlink => cases ht
  | attach on off => exact absurd rfl (hi on off)
  | detach on off =>
    obtain rfl := Host.Outcome.next.inj h
    split
    · constructor <;> dsimp only [State.respond_ledBright, State.respond_chBright] <;> split <;> simp
    · exact ⟨rfl, rfl⟩
  | shutdown on off =>
    obtain rfl := Host.Outcome.next.inj h
    split
    · simp
    · exact ⟨rfl, rfl⟩
  | wrIled3 code =>
    simp only [exec, execWrIled3, writeIled] at h
    split at h
    · obtain rfl := Host.Outcome.next.inj h
      simp
    · cases h
  | reservedOp0 | reservedOp67 | reservedOp8F =>
    obtain rfl := Host.Outcome.next.inj h
    exact ⟨rfl, rfl⟩
  | resetCmd | sleepCmd | wakeCmd | wrPeriod | wrPwm1 | updCtrl | wrIled0 | wrIled1 | wrIled2 =>
    obtain rfl := Host.Outcome.next.inj h
    simp

/-- Settles O58: the requests with a target through `targetRequest_cases`, the other instructions one by one. -/
theorem brightnessWrittenOnlyByItsRequests : Obligations.BrightnessWrittenOnlyByItsRequests := by
  intro i s u h hattach
  cases ht : i.target? with
  | none =>
    obtain ⟨hled, hch⟩ := untargeted_brightness ht hattach h
    exact ⟨fun l _ => by rw [hled], fun c _ => by rw [hch], fun _ _ _ _ _ => ⟨hled, hch⟩⟩
  | some t =>
    rcases targetRequest_cases ht h with rfl | ⟨led, body, a, b, c, d, _, hled, hb, rfl⟩
    · exact ⟨fun _ _ => rfl, fun _ _ => rfl, fun _ _ _ _ _ => ⟨rfl, rfl⟩⟩
    · obtain ⟨r, hr⟩ := (gatedRequest i body s).conclude_eq a b c d
      obtain ⟨hlb, hch, hnone⟩ := gatedRequest_brightness hb s
      rw [hr, State.respond_ledBright, State.respond_chBright, hlb]
      refine ⟨fun l hl => newBright_getElem?_of_ne ht (hl t rfl) _, fun c hc => hch c (hc t led rfl hled), ?_⟩
      rintro t' on off rfl hpath
      have hn : ¬setsBrightness (.setBlink t' on off) := fun ⟨hon, hoff⟩ => hpath.elim (· hon) hoff
      exact ⟨newBright_of_not_setsBrightness hn _, hnone hn⟩

/-! ### `ENABLED` and the activity predicate (R16) -/

/-- A request with a target only appends to the trace (R46). -/
theorem acts_trace_prefix {led : Led} {s u : State} (h : Acts led s u) : s.trace <+: u.trace := by
  induction h with
  | refl => exact List.prefix_refl _
  | step _ hact ih =>
    cases hact with
    | flag | bright => exact ih
    | enable | disable => simpa using ih.trans (List.prefix_append _ _)
    | _ => simpa using ih.trans (List.prefix_append _ _)

/-- What is appended later than `t` is new since `s`. -/
theorem mem_newEvents_of_append {s t u : State} {es : List Event} {e : Event} (hst : s.trace <+: t.trace)
    (hu : u.trace = t.trace ++ es) (he : e ∈ es) : e ∈ s.newEvents u := by
  obtain ⟨l, hl⟩ := hst
  simp [State.newEvents, hu, ← hl, he]

theorem ensureEnabled_enabled_of_ok {s : State} (h : (ensureEnabled s).raised = none) :
    (ensureEnabled s).state.enabled = true := by
  rcases ensureEnabled_cases s with ⟨he, h'⟩ | ⟨_, _, h'⟩ | ⟨_, _, _, h'⟩ | ⟨_, _, _, h'⟩ <;> rw [h'] at h ⊢
  · exact he
  · cases h
  · rfl
  · cases h

/-- ENSURE_DISABLED leaves `ENABLED = 0` unless its power call fails, which is swallowed (R69). -/
theorem ensureDisabled_enabled (s : State) : (ensureDisabled s).enabled = false ∨
    ∃ r, (ensureDisabled s).trace = s.trace ++ [.bus .write 0x00#8 0xFF#8 0x08#8 r, .pwr .disable .err] := by
  rcases ensureDisabled_cases s with ⟨he, h⟩ | ⟨_, _, h⟩ | ⟨_, hr, h⟩ <;> rw [h]
  · exact .inl he
  · exact .inl rfl
  · exact .inr ⟨s.nextDraw.result, by simp [State.nextDraw_eq (busWrite _ _ s).2, hr]⟩

/-- GATED without an error leaves `ENABLED` as the activity of the new brightnesses, or a failed power-off is the last
thing it emitted (R16, R79). -/
theorem gated_enabled_or_powerError {led : Led} {bOld bNew : List Byte} {body : State → Micro} {s : State}
    (hacts : ∀ t, Acts led t (body t).state) (hen : ∀ t, (body t).state.enabled = t.enabled)
    (hok : (gated bOld bNew body s).raised = none) :
    (gated bOld bNew body s).state.enabled = anyActive s.config.ledCount bNew ∨
    ∃ (t : State) (r : Result), s.trace <+: t.trace ∧ (gated bOld bNew body s).state.trace =
      t.trace ++ [.bus .write 0x00#8 0xFF#8 0x08#8 r, .pwr .disable .err] := by
  obtain ⟨up, hdef, hg⟩ := gated_cases bOld bNew body s
  rcases hg with ⟨e, hraised, hg⟩ | ⟨_, e, hraised, hg⟩ | ⟨hup, _, hg⟩ <;> rw [hg] at hok ⊢
  · simp [hraised] at hok
  · simp [hraised] at hok
  · cases hact : anyActive s.config.ledCount bNew with
    | true =>
      rw [hact, Bool.true_or, if_pos rfl] at hdef
      subst hdef
      left
      rw [done_state, if_pos rfl, hen, ensureEnabled_enabled_of_ok hup]
    | false =>
      have hstart : Acts led s up.state := by
        rw [hdef]
        split
        · exact ensureEnabled_acts led s
        · exact .refl s
      rw [done_state, if_neg (by decide)]
      exact (ensureDisabled_enabled _).imp id fun ⟨r, hr⟩ =>
        ⟨_, r, acts_trace_prefix (hstart.trans (hacts _)), hr⟩

/-- Only a request that raised nothing answers OK (R98, R99). -/
theorem raised_eq_none_of_answers_ok {m : Micro} {s : State} {a b c d : Millis} {r : Response}
    (hresp : m.state.responses = s.responses) (hr : s.Answers (m.conclude a b c d) r) (hok : r.status = .ok) :
    m.raised = none := by
  cases hm : m.raised with
  | none => rfl
  | some e =>
    simp only [Micro.conclude, hm, State.Answers, State.respond_responses, hresp, List.append_cancel_left_eq,
      List.cons.injEq, and_true] at hr
    subst hr
    cases e <;> cases hok

/-- R16: a request with a target that ends OK, no power call having failed, leaves `ENABLED` as the activity. -/
theorem enabled_eq_active_of_ok {i : Instr} {s u : State} {r : Response} (ht : i.target? ≠ none)
    (h : exec i s = .next u) (hans : s.Answers u r) (hok : r.status = .ok)
    (hpow : ∀ e ∈ s.newEvents u, e.powerError = false) : u.enabled = u.active := by
  obtain ⟨t, ht⟩ := Option.ne_none_iff_exists'.1 ht
  rcases targetRequest_cases ht h with rfl | ⟨led, body, a, b, c, d, _, _, hb, rfl⟩
  · have hill : ⟨.illegalRequest, i.onMs, i.offMs⟩ = r := by simpa [illegalRequest] using hans
    rw [← hill] at hok
    cases hok
  · obtain ⟨hcfg, _, hlb, hresp, _⟩ := acts_frame (gatedRequest_acts hb s)
    have hraised := raised_eq_none_of_answers_ok hresp hans hok
    obtain ⟨r', hr'⟩ := (gatedRequest i body s).conclude_eq a b c d
    rw [hr'] at hpow ⊢
    rcases gated_enabled_or_powerError hb.acts hb.enabled hraised with hen | ⟨v, res, hpre, htr⟩
    · simp only [State.active, State.respond_enabled, State.respond_config, State.respond_ledBright, hcfg, hlb]
      exact hen
    · have hmem := mem_newEvents_of_append (e := .pwr .disable .err) hpre htr (by simp)
      exact absurd (hpow _ hmem) (by decide)

/-- One LED on a 3-channel chip in use, with the brightness `b`, `ENABLED = on` and the answers `ds` to come. -/
def oneLedInUse (on : Bool) (b : Byte) (ds : List Draw) : State :=
  { State.start ⟨3, [.single 0], Vector.replicate 10 0#8, 0, false, false⟩ true with
    lifecycle := .attached, enabled := on, ledBright := [b], draws := ds }

/-- Settles O25: `enabled_eq_active_of_ok`, a power-up refused by the power source, and a power-down it refused. -/
theorem enabledMatchesActivity : Obligations.EnabledMatchesActivity := by
  refine ⟨fun i s u ht h ⟨r, hans, hok⟩ hpow => enabled_eq_active_of_ok ht h hans hok hpow, ?_, ?_⟩
  · exact ⟨.setBrightness 0#4 5#8 0#64 0#64, oneLedInUse false 0#8 [⟨.err, false⟩], _, by decide, rfl,
      ⟨_, rfl, rfl⟩, rfl, rfl⟩
  · exact ⟨.setBrightness 0#4 0#8 0#64 0#64,
      oneLedInUse true 5#8 [⟨.ok, true⟩, ⟨.ok, true⟩, ⟨.ok, true⟩, ⟨.err, false⟩], _, by decide, rfl,
      ⟨_, rfl, rfl⟩, List.mem_of_elem_eq_true rfl, rfl, rfl⟩

end Sys2Proof.Machine
end

section
/-! PROOFS. What the block does is blind to the power source's record and to the chip (10_state.md R17; 20_memory.md
R40): each operation leaves blocks that agree from blocks that agree, and requests are composed of such operations. -/

namespace Sys2Proof.Machine

open Sys2Proof

/-! ### Agreement of two states on the block -/

/-- Two states that differ at most in the record of the power source and in the chip. -/
def SameBlock (s s' : State) : Prop := s.forgetChip = s'.forgetChip

theorem sameBlock_iff {s s' : State} : SameBlock s s' ↔
    s.lifecycle = s'.lifecycle ∧ s.enabled = s'.enabled ∧ s.ledBright = s'.ledBright ∧ s.chBright = s'.chBright ∧
    s.config = s'.config ∧ s.trace = s'.trace ∧ s.responses = s'.responses ∧ s.pending = s'.pending ∧
    s.draws = s'.draws ∧ s.drawn = s'.drawn := by
  simp [SameBlock, State.forgetChip, State.setPsrcOn, State.setImage, State.setChipMode]

theorem SameBlock.nextDraw {s s' : State} (h : SameBlock s s') : s.nextDraw = s'.nextDraw := by
  obtain ⟨_, _, _, _, _, _, _, _, hdraws, hdrawn⟩ := sameBlock_iff.1 h
  rw [State.nextDraw_eq, State.nextDraw_eq, State.drawAt_congr hdraws hdrawn]

/-- Agreement of what two micro-operations left: the blocks and the errors. -/
structure SameMicro (m m' : Micro) : Prop where
  state : SameBlock m.state m'.state
  raised : m.raised = m'.raised

/-- Agreement of what two port operations left: the answers and the blocks. -/
structure SamePort (x x' : Result × State) : Prop where
  result : x.1 = x'.1
  state : SameBlock x.2 x'.2

/-- A micro-operation that does not branch on the power source's record or the chip. -/
def Blind (f : State → Micro) : Prop := ∀ s s', SameBlock s s' → SameMicro (f s) (f s')

/-- The same of an operation that only leaves a state. -/
def BlindState (f : State → State) : Prop := ∀ s s', SameBlock s s' → SameBlock (f s) (f s')

/-- The same of a port operation. -/
def BlindPort (f : State → Result × State) : Prop := ∀ s s', SameBlock s s' → SamePort (f s) (f s')

/-! ### The operations -/

theorem setLifecycle_blind (l : Lifecycle) : BlindState (·.setLifecycle l) := fun s s' h => by
  simp_all [sameBlock_iff]

theorem setEnabled_blind (b : Bool) : BlindState (·.setEnabled b) := fun s s' h => by
  simp_all [sameBlock_iff]

theorem respond_blind (r : Response) : BlindState (·.respond r) := fun s s' h => by
  simp_all [sameBlock_iff]

theorem setLedBright_blind (f : List Byte → List Byte) : BlindState fun s => s.setLedBright (f s.ledBright) :=
  fun s s' h => by simp_all [sameBlock_iff]

theorem setChBright_blind (f : List Byte → List Byte) : BlindState fun s => s.setChBright (f s.chBright) :=
  fun s s' h => by simp_all [sameBlock_iff]

theorem settleWait_blind : BlindState settleWait := fun s s' h => by
  simp_all [sameBlock_iff]

theorem busWrite_blind (a v : Byte) : BlindPort (busWrite a v) := fun s s' h => by
  have hd := h.nextDraw
  refine ⟨by simp [hd], ?_⟩
  simp_all [sameBlock_iff]

theorem busUpdate_blind (a m v : Byte) : BlindPort (busUpdate a m v) := fun s s' h => by
  have hd := h.nextDraw
  refine ⟨by simp [hd], ?_⟩
  simp_all [sameBlock_iff]

theorem powerEnable_blind : BlindPort powerEnable := fun s s' h => by
  have hd := h.nextDraw
  refine ⟨by simp [hd], ?_⟩
  simp_all [sameBlock_iff]

theorem powerDisable_blind : BlindPort powerDisable := fun s s' h => by
  have hd := h.nextDraw
  refine ⟨by simp [hd], ?_⟩
  simp_all [sameBlock_iff]

/-! ### Their composition -/

theorem done_blind : Blind done := fun _ _ h => ⟨h, rfl⟩

theorem SamePort.orRaise {x x' : Result × State} (e : Error) (h : SamePort x x') :
    SameMicro (orRaise e x) (orRaise e x') := by
  refine ⟨by simpa using h.state, ?_⟩
  rw [orRaise_raised, orRaise_raised, h.result]

theorem SameMicro.andThen {m m' : Micro} {f f' : State → Micro} (h : SameMicro m m')
    (hf : ∀ t t', SameBlock t t' → SameMicro (f t) (f' t')) : SameMicro (m.andThen f) (m'.andThen f') := by
  unfold Micro.andThen
  rw [← h.raised]
  cases m.raised with
  | none => exact hf _ _ h.state
  | some e => exact h

theorem SameMicro.conclude {m m' : Micro} (h : SameMicro m m') (a b c d : Millis) :
    SameBlock (m.conclude a b c d) (m'.conclude a b c d) := by
  unfold Micro.conclude
  rw [← h.raised]
  cases m.raised <;> exact respond_blind _ _ _ h.state

theorem illegalRequest_blind (on off : Millis) : BlindState (illegalRequest on off) :=
  respond_blind ⟨.illegalRequest, on, off⟩

/-! ### The power controller -/

theorem wakeChip_blind : Blind wakeChip := fun s s' h => by
  have hw := busWrite_blind 0x00#8 0x00#8 s s' h
  unfold wakeChip
  dsimp only
  rw [← hw.result]
  cases (busWrite 0x00#8 0x00#8 s).1 with
  | ok => exact ⟨setEnabled_blind true _ _ hw.state, rfl⟩
  | err => exact ⟨(powerDisable_blind _ _ hw.state).state, rfl⟩

theorem ensureEnabled_blind : Blind ensureEnabled := fun s s' h => by
  obtain ⟨_, hen, _⟩ := sameBlock_iff.1 h
  unfold ensureEnabled
  rw [← hen]
  split
  · exact done_blind s s' h
  · exact ((powerEnable_blind s s' h).orRaise .power).andThen wakeChip_blind

theorem ensureDisabled_blind : BlindState ensureDisabled := fun s s' h => by
  obtain ⟨_, hen, _⟩ := sameBlock_iff.1 h
  have hd := powerDisable_blind _ _ (busWrite_blind 0x00#8 0x08#8 s s' h).state
  unfold ensureDisabled clearEnabledOnOk
  rw [← hen, ← hd.result]
  split
  · split
    · exact setEnabled_blind false _ _ hd.state
    · exact hd.state
  · exact h

theorem gated_blind (bOld bNew : List Byte) {body : State → Micro} (hb : Blind body) : Blind (gated bOld bNew body) :=
  fun s s' h => by
    obtain ⟨_, _, _, _, hcfg, _⟩ := sameBlock_iff.1 h
    unfold gated
    dsimp only
    rw [← hcfg]
    refine SameMicro.andThen (SameMicro.andThen ?_ hb) fun t t' ht => ?_
    · split
      · exact ensureEnabled_blind s s' h
      · exact done_blind s s' h
    · split
      · exact done_blind t t' ht
      · exact done_blind _ _ (ensureDisabled_blind t t' ht)

/-! ### The channel driver and the bodies -/

theorem groupCtrl_blind (cs : List Nat) (f : BitVec 2) : Blind (groupCtrl cs f) := fun s s' h =>
  (busUpdate_blind _ _ _ s s' h).orRaise .bus

theorem setChannel_blind (c : Nat) (b : Byte) : Blind (setChannel c b) := fun s s' h =>
  ((busWrite_blind _ _ _ _ (setChBright_blind (·.set c b) s s' h)).orRaise .bus).andThen fun t t' ht =>
    (busUpdate_blind _ _ _ t t' ht).orRaise .bus

theorem writeChannels_blind : ∀ ps : List (Nat × Byte), Blind (writeChannels ps)
  | [] => done_blind
  | (c, b) :: rest => fun s s' h => (setChannel_blind c b s s' h).andThen (writeChannels_blind rest)

theorem ledWrite_blind (led : Led) (v : Byte) : Blind (ledWrite led v) := writeChannels_blind _

theorem blinkWrites_blind (cs : List Nat) (g : Timing) : Blind (blinkWrites cs g) := fun s s' h =>
  (((busWrite_blind _ _ s s' h).orRaise .bus).andThen fun t t' ht =>
    (busWrite_blind _ _ t t' ht).orRaise .bus).andThen (groupCtrl_blind cs 2#2)

theorem setBrightnessBody_blind (t : BitVec 4) (led : Led) (v : Byte) : Blind (setBrightnessBody t led v) :=
  fun s s' h => by
    obtain ⟨_, _, hlb, _⟩ := sameBlock_iff.1 h
    unfold setBrightnessBody
    rw [← hlb]
    exact gated_blind _ _ (ledWrite_blind led v) _ _ (setLedBright_blind (fun _ => s.ledBright.set t.toNat v) s s' h)

theorem blinkTiming_congr {s s' : State} (h : s.drawn = s'.drawn) (on off : Millis) :
    blinkTiming on off s = blinkTiming on off s' := by
  unfold blinkTiming
  rw [h]

theorem blinkAlwaysOn_blind (led : Led) (on off : Millis) : BlindState (blinkAlwaysOn led on off) := fun s s' h => by
  obtain ⟨_, _, hlb, _⟩ := sameBlock_iff.1 h
  unfold blinkAlwaysOn
  rw [← hlb]
  exact (gated_blind _ _ (groupCtrl_blind _ _) s s' h).conclude ..

theorem blinkGeneral_blind (led : Led) (on off onMs offMs : Millis) :
    BlindState (blinkGeneral led on off onMs offMs) := fun s s' h => by
  obtain ⟨_, _, hlb, _, _, _, _, _, _, hdrawn⟩ := sameBlock_iff.1 h
  unfold blinkGeneral
  rw [← hlb, ← blinkTiming_congr hdrawn]
  exact (gated_blind _ _ (blinkWrites_blind _ _) s s' h).conclude ..

theorem setBlinkBody_blind (t : BitVec 4) (led : Led) (on off : Millis) : BlindState (setBlinkBody t led on off) :=
  fun s s' h => by
    unfold setBlinkBody
    dsimp only
    generalize (if on = 0#64 ∧ off = 0#64 then 500#64 else on) = onQ
    generalize (if on = 0#64 ∧ off = 0#64 then 500#64 else off) = offQ
    split
    · exact blinkAlwaysOn_blind led on off s s' h
    · split
      · exact (setBrightnessBody_blind t led 0#8 s s' h).conclude ..
      · exact blinkGeneral_blind led onQ offQ on off s s' h

/-! ### The requests -/

theorem targetLed_congr {s s' : State} (h : s.config = s'.config) (t : BitVec 4) : targetLed s t = targetLed s' t := by
  unfold targetLed
  rw [h]

/-- After a reset write that was answered OK, ATTACH reads the configuration only (R95). -/
theorem attachEnumerate_blind : Blind attachEnumerate := fun s s' h => by
  obtain ⟨_, _, _, _, hcfg, _⟩ := sameBlock_iff.1 h
  have hw := settleWait_blind s s' h
  unfold attachEnumerate
  rw [← hcfg]
  dsimp only
  split
  · refine done_blind _ _ (setLifecycle_blind _ _ _ (setEnabled_blind _ _ _ ?_))
    exact setChBright_blind (fun _ => _) _ _ (setLedBright_blind (fun _ => _) _ _ hw)
  · exact ⟨hw, rfl⟩

/-- Every request is a total operation on the state that is blind to the power source's record and the chip. -/
theorem exec_blind {i : Instr} (hi : i.isRequest = true) : ∃ f, (∀ s, exec i s = .next (f s)) ∧ BlindState f := by
  cases i with
  | setBrightness t v on off =>
    refine ⟨_, fun _ => rfl, fun s s' h => ?_⟩
    obtain ⟨hl, _, _, _, hcfg, _⟩ := sameBlock_iff.1 h
    rw [← hl, ← targetLed_congr hcfg]
    split
    · split
      · exact illegalRequest_blind on off s s' h
      · exact (setBrightnessBody_blind t _ v s s' h).conclude ..
    · exact illegalRequest_blind on off s s' h
  | setBlink t on off =>
    refine ⟨_, fun _ => rfl, fun s s' h => ?_⟩
    obtain ⟨hl, _, _, _, hcfg, _⟩ := sameBlock_iff.1 h
    rw [← hl, ← targetLed_congr hcfg]
    split
    · split
      · exact illegalRequest_blind on off s s' h
      · exact setBlinkBody_blind t _ on off s s' h
    · exact illegalRequest_blind on off s s' h
  | attach on off =>
    refine ⟨_, fun _ => rfl, fun s s' h => ?_⟩
    obtain ⟨hl, _⟩ := sameBlock_iff.1 h
    rw [← hl]
    split
    · exact (((busWrite_blind 0x00#8 0x07#8 s s' h).orRaise .bus).andThen attachEnumerate_blind).conclude ..
    · exact illegalRequest_blind on off s s' h
  | detach on off =>
    refine ⟨_, fun _ => rfl, fun s s' h => ?_⟩
    obtain ⟨hl, _⟩ := sameBlock_iff.1 h
    have hw := (busWrite_blind 0x00#8 0x07#8 s s' h).state
    obtain ⟨_, hen, _⟩ := sameBlock_iff.1 hw
    dsimp only
    rw [← hl, ← hen]
    split
    · refine respond_blind _ _ _ (setLifecycle_blind _ _ _ ?_)
      split
      · exact setEnabled_blind false _ _ (powerDisable_blind _ _ hw).state
      · exact hw
    · exact illegalRequest_blind on off s s' h
  | shutdown on off =>
    refine ⟨_, fun _ => rfl, fun s s' h => ?_⟩
    obtain ⟨hl, _⟩ := sameBlock_iff.1 h
    rw [← hl]
    split
    · exact respond_blind _ _ _ (setLifecycle_blind _ _ _ (busWrite_blind 0x00#8 0x07#8 s s' h).state)
    · exact illegalRequest_blind on off s s' h
  | reservedOp0 on off => exact ⟨_, fun _ => rfl, illegalRequest_blind on off⟩
  | reservedOp67 _ on off => exact ⟨_, fun _ => rfl, illegalRequest_blind on off⟩
  | reservedOp8F _ on off => exact ⟨_, fun _ => rfl, illegalRequest_blind on off⟩
  | _ => cases hi

/-- Settles O56, from `exec_blind`. -/
theorem blockNeverReadsTheChip : Obligations.BlockNeverReadsTheChip := by
  intro i s s' hi h
  obtain ⟨f, hf, hblind⟩ := exec_blind hi
  exact ⟨f s, f s', hf s, hf s', hblind s s' h⟩

end Sys2Proof.Machine
end

section
/-! PROOFS. What the chip's registers can hold while only the host presents words (10_state.md R24 to R30): what each
register and each control field admits, and that every action of a request writes only that. -/

namespace Sys2Proof.Machine

open Sys2Proof

/-! ### The invariant, register by register and field by field -/

/-- What the block and the chip reset put into register `a`, CHANNEL_CTRL apart (R24 to R27, R29, R30). -/
def Admits (p : Params) : Nat → Byte → Prop
  | 0, v => v = 0x00#8 ∨ v = 0x08#8 ∨ v = regDefaultAt p 0
  | 1, v => (1 ≤ v.toNat ∧ v.toNat ≤ 126) ∨ v = regDefaultAt p 1
  | 2, _ => True
  | 3, v => v = regDefaultAt p 3
  | 4, _ => True
  | 5, v => v = regDefaultAt p 5
  | c + 6, v => v.toNat ≤ 254 ∨ v = regDefaultAt p (c + 6)

theorem admits_default (p : Params) : ∀ a, Admits p a (regDefaultAt p a)
  | 0 => .inr (.inr rfl)
  | 1 => .inr rfl
  | 2 => trivial
  | 3 => rfl
  | 4 => trivial
  | 5 => rfl
  | _ + 6 => .inr rfl

theorem admits_iled {p : Params} (c : Nat) {v : Byte} (h : v.toNat ≤ 254) : Admits p (6 + c) v := by
  rw [Nat.add_comm]
  exact .inl h

/-- What field `c` of CHANNEL_CTRL can hold, as the bits that hold a value and the bits (R28, R38). -/
def FieldAdmits (p : Params) (c : Nat) (field : BitVec 2 × BitVec 2) : Prop :=
  field.1 = 0#2 ∨ (field.1 = 3#2 ∧
    (field.2 = 3#2 → (regDefaultAt p 4).extractLsb' (2 * c) 2 = 3#2) ∧
    (p.channelCount ≤ c → field.2 = (regDefaultAt p 4).extractLsb' (2 * c) 2))

theorem channelMode_eq_some_iff (s : State) (c : Nat) (f : BitVec 2) :
    s.channelMode c = some f ↔ s.ctrlField c = (3#2, f) := by
  rw [channelMode_eq, Prod.ext_iff]
  split <;> simp_all

/-- The invariant of the registers, as one statement for the whole registers and one for the control fields. -/
theorem regsInv_iff (s : State) : s.RegsInv ↔
    (∀ a, a ≠ 4 → a < 6 + s.config.channelCount → (s.reg a).noValueOr (Admits s.config a)) ∧
    (∀ c, c < 4 → FieldAdmits s.config c (s.ctrlField c)) := by
  constructor
  · intro h
    refine ⟨fun a ha hlt => ?_, fun c hc => ?_⟩
    · match a with
      | 0 => exact h.resetCtrl
      | 1 => exact h.period
      | 2 => exact h.duty
      | 3 => exact h.pwm2
      | 4 => exact absurd rfl ha
      | 5 => exact h.riseFall
      | c + 6 =>
        have hiled := h.iled c (by omega)
        rw [Nat.add_comm 6 c] at hiled
        exact hiled
    · refine (h.ctrlWhole c hc).imp id fun h3 => ?_
      have hmode : s.channelMode c = some (s.ctrlField c).2 := (channelMode_eq_some_iff s c _).2 (Prod.ext h3 rfl)
      exact ⟨h3, fun hf => h.ctrlFields c hc (hmode.trans (congrArg some hf)),
        fun hspare => h.ctrlSpare c hspare hc _ hmode⟩
  · intro ⟨hreg, hctrl⟩
    have hmode : ∀ c, c < 4 → ∀ f, s.channelMode c = some f →
        (f = 3#2 → (regDefaultAt s.config 4).extractLsb' (2 * c) 2 = 3#2) ∧
        (s.config.channelCount ≤ c → f = (regDefaultAt s.config 4).extractLsb' (2 * c) 2) := by
      intro c hc f hf
      have hadm := hctrl c hc
      rw [(channelMode_eq_some_iff s c f).1 hf] at hadm
      rcases hadm with h0 | ⟨_, hok⟩
      · exact absurd (show (3#2 : BitVec 2) = 0#2 from h0) (by decide)
      · exact hok
    exact {
      resetCtrl := hreg 0 (by omega) (by omega)
      period := hreg 1 (by omega) (by omega)
      duty := hreg 2 (by omega) (by omega)
      pwm2 := hreg 3 (by omega) (by omega)
      riseFall := hreg 5 (by omega) (by omega)
      iled := fun c hc => by
        have hiled := hreg (6 + c) (by omega) (by omega)
        rw [Nat.add_comm] at hiled ⊢
        exact hiled
      ctrlWhole := fun c hc => (hctrl c hc).imp id And.left
      ctrlFields := fun c hc hf => (hmode c hc _ hf).1 rfl
      ctrlSpare := fun c hspare hc f hf => (hmode c hc f hf).2 hspare }

/-- The invariant is kept where every register and every field is as before or holds what it admits. -/
theorem regsInv_of_changes {s u : State} (h : s.RegsInv) (hcfg : u.config = s.config)
    (hreg : ∀ a, a ≠ 4 → u.reg a = s.reg a ∨ (u.reg a).noValueOr (Admits s.config a))
    (hctrl : ∀ c, c < 4 → u.ctrlField c = s.ctrlField c ∨ FieldAdmits s.config c (u.ctrlField c)) : u.RegsInv := by
  obtain ⟨hr, hc⟩ := (regsInv_iff s).1 h
  rw [regsInv_iff, hcfg]
  refine ⟨fun a ha hlt => ?_, fun c hc4 => ?_⟩
  · rcases hreg a ha with heq | hadm
    · rw [heq]; exact hr a ha hlt
    · exact hadm
  · rcases hctrl c hc4 with heq | hadm
    · rw [heq]; exact hc c hc4
    · exact hadm

/-- The invariant speaks of the registers and the configuration only. -/
theorem regsInv_congr {s u : State} (h : s.RegsInv) (hcfg : u.config = s.config) (himg : u.image = s.image) :
    u.RegsInv := by
  have hreg : ∀ a, u.reg a = s.reg a := fun a => by rw [State.reg, State.reg, himg]
  exact regsInv_of_changes h hcfg (fun a _ => .inl (hreg a)) fun c _ => .inl (by rw [State.ctrlField, State.ctrlField, hreg])

/-! ### What one register holds settles its fields -/

theorem ctrlField_of_reg_eq {s u : State} (h : u.reg 4 = s.reg 4) (c : Nat) : u.ctrlField c = s.ctrlField c := by
  rw [State.ctrlField, State.ctrlField, h]

theorem fieldAdmits_of_noValue {u : State} (p : Params) (h : u.reg 4 = RegVal.noValue) (c : Nat) :
    FieldAdmits p c (u.ctrlField c) :=
  .inl (by rw [State.ctrlField, h]; simp [RegVal.noValue])

theorem fieldAdmits_of_default {u : State} {p : Params} (h : u.reg 4 = RegVal.full (regDefaultAt p 4)) {c : Nat}
    (hc : c < 4) : FieldAdmits p c (u.ctrlField c) := by
  have hone : (0xFF#8 : Byte).extractLsb' (2 * c) 2 = 3#2 := by interval_cases c <;> rfl
  rw [State.ctrlField, h]
  exact .inr ⟨hone, id, fun _ => rfl⟩

/-! ### The port operations -/

/-- A WRITE of the reset code, or of a byte that its register admits, keeps the ranges, whether or not it takes effect
(R37, R39). -/
theorem busWrite_regsInv {a v : Byte} {s : State} (hwf : s.image.wf = true) (h : s.RegsInv)
    (hv : (a = 0x00#8 ∧ v = 0x07#8) ∨ (a.toNat ≠ 4 ∧ Admits s.config a.toNat v)) : (busWrite a v s).2.RegsInv := by
  have hread := busWrite_reg a v hwf
  have h4 : 4 < regCount s.config := by have := six_le_regCount s.config; omega
  by_cases happ : s.applies = true
  · simp only [happ, if_true] at hread
    by_cases hreset : a = 0x00#8 ∧ v = 0x07#8
    · simp only [hreset, and_self, if_true, read_defaultImage] at hread
      refine regsInv_of_changes h (busWrite_config ..) (fun b _ => .inr ?_)
        fun c hc => .inr (fieldAdmits_of_default (by simpa [hreset, h4] using hread 4) hc)
      rw [hreset.1, hreset.2, hread b]
      split
      · exact .inr ⟨_, rfl, admits_default _ b⟩
      · exact .inl rfl
    · obtain ⟨ha, hadm⟩ := hv.resolve_left hreset
      simp only [hreset, if_false] at hread
      refine regsInv_of_changes h (busWrite_config ..) (fun b _ => ?_)
        fun c _ => .inl (ctrlField_of_reg_eq (by rw [hread 4, if_neg fun hb => ha hb.2.symm]) c)
      rw [hread b]
      split
      · rename_i hb
        exact .inr (.inr ⟨v, rfl, hb.2 ▸ hadm⟩)
      · exact .inl rfl
  · exact regsInv_congr h (busWrite_config ..) (by rw [busWrite_image, if_neg happ])

/-- An UPDATE of the control fields of channels of the chip to a mode other than `11` keeps the ranges (R28, R38, R76). -/
theorem groupUpdate_regsInv {cs : List Nat} {f : BitVec 2} {s : State} (hwf : s.image.wf = true) (h : s.RegsInv)
    (hcs : ∀ c ∈ cs, c < 4 ∧ c < s.config.channelCount) (hf : f ≠ 3#2) :
    (busUpdate 0x04#8 (groupMask cs) (groupData f cs) s).2.RegsInv := by
  have hcs4 : ∀ c ∈ cs, c < 4 := fun c hc => (hcs c hc).1
  have hread := busUpdate_reg 0x04#8 (groupMask cs) (groupData f cs) hwf
  refine regsInv_of_changes h (busUpdate_config ..) (fun a ha => .inl ?_) fun c hc => ?_
  · rw [hread a, if_neg fun hb => ha hb.2.2]
  · by_cases hmem : c ∈ cs
    · rw [State.ctrlField, hread 4]
      split
      · obtain ⟨hknown, hbits⟩ := groupField cs f (s.reg 4) c hmem hcs4
        rw [hknown, hbits]
        exact .inr (.inr ⟨rfl, fun h3 => absurd h3 hf, fun hspare => absurd (hcs c hmem).2 (by omega)⟩)
      · exact .inl rfl
    · exact .inl (busUpdate_field _ _ _ s hwf c hc (groupMask_other cs c hcs4 hc hmem))

theorem powerEnable_regsInv {s : State} (h : s.RegsInv) : (powerEnable s).2.RegsInv :=
  regsInv_congr h (powerEnable_config s) (powerEnable_image s)

/-- A power-off keeps the image or takes every register's value (R41). -/
theorem powerDisable_image_cases (s : State) :
    (powerDisable s).2.image = s.image ∨ (powerDisable s).2.image = RegImage.empty := by
  rw [powerDisable_image, imageAfterPowerOff]
  split
  · split
    · exact .inl rfl
    · exact .inr rfl
  · exact .inl rfl

theorem powerDisable_regsInv {s : State} (h : s.RegsInv) : (powerDisable s).2.RegsInv := by
  rcases powerDisable_image_cases s with himg | himg
  · exact regsInv_congr h (powerDisable_config s) himg
  · have hreg : ∀ a, (powerDisable s).2.reg a = RegVal.noValue := fun a => by
      rw [State.reg, himg, RegImage.read_empty]
    exact regsInv_of_changes h (powerDisable_config s) (fun a _ => .inr (.inl (hreg a)))
      fun c _ => .inr (fieldAdmits_of_noValue _ (hreg 4) c)

/-! ### The requests -/

/-- The current code of a brightness is never 255 (R30, R71). -/
theorem iledCode_le (b : Byte) : (iledCode b).toNat ≤ 254 := by
  unfold iledCode
  split
  · decide
  · bv_omega

/-- One action of a request on an LED of the chip keeps the canonical form and the ranges. -/
theorem act_regsInv {led : Led} {s u : State} (hact : Act led s u)
    (hled : ∀ c ∈ ledMembers led, c < 4 ∧ c < s.config.channelCount) (hwf : s.image.wf = true) (h : s.RegsInv) :
    u.image.wf = true ∧ u.RegsInv := by
  cases hact with
  | wake => exact ⟨busWrite_wf _ _ hwf, busWrite_regsInv hwf h (.inr ⟨by decide, .inl rfl⟩)⟩
  | sleep => exact ⟨busWrite_wf _ _ hwf, busWrite_regsInv hwf h (.inr ⟨by decide, .inr (.inl rfl)⟩)⟩
  | period n _ h1 h2 => exact ⟨busWrite_wf _ _ hwf, busWrite_regsInv hwf h (.inr ⟨by decide, .inl ⟨h1, h2⟩⟩)⟩
  | duty code => exact ⟨busWrite_wf _ _ hwf, busWrite_regsInv hwf h (.inr ⟨by decide, trivial⟩)⟩
  | iled c b _ hc =>
    refine ⟨busWrite_wf _ _ hwf, busWrite_regsInv hwf h (.inr ?_)⟩
    rw [iledAddr_toNat (hled c hc).1]
    exact ⟨by omega, admits_iled c (iledCode_le b)⟩
  | field c f _ hc hf =>
    have hone := groupUpdate_regsInv (cs := [c]) hwf h (by simpa using hled c hc) hf
    simp only [groupMask, groupData, BitVec.or_zero] at hone
    exact ⟨busUpdate_wf _ _ _ hwf, hone⟩
  | fields f _ hf => exact ⟨busUpdate_wf _ _ _ hwf, groupUpdate_regsInv hwf h hled hf⟩
  | enable => exact ⟨by simpa using hwf, powerEnable_regsInv h⟩
  | disable => exact ⟨powerDisable_wf hwf, powerDisable_regsInv h⟩
  | flag | bright => exact ⟨hwf, regsInv_congr h rfl rfl⟩

theorem acts_regsInv {led : Led} {s u : State} (hacts : Acts led s u)
    (hled : ∀ c ∈ ledMembers led, c < 4 ∧ c < s.config.channelCount) (hwf : s.image.wf = true) (h : s.RegsInv) :
    u.image.wf = true ∧ u.RegsInv := by
  induction hacts with
  | refl => exact ⟨hwf, h⟩
  | step hrun hact ih =>
    obtain ⟨hwf', h'⟩ := ih
    rw [← (acts_frame hrun).1] at hled
    exact act_regsInv hact hled hwf' h'

theorem resetWrite_regsInv {s : State} (hwf : s.image.wf = true) (h : s.RegsInv) :
    (busWrite 0x00#8 0x07#8 s).2.RegsInv :=
  busWrite_regsInv hwf h (.inl ⟨rfl, rfl⟩)

/-- ATTACH leaves the registers and the configuration as its reset write does (R95). -/
theorem attachEnumerate_image (s : State) :
    (attachEnumerate s).state.config = s.config ∧ (attachEnumerate s).state.image = s.image := by
  unfold attachEnumerate
  dsimp only
  split <;> exact ⟨rfl, rfl⟩

/-- Every request keeps the ranges: its writes are those of `Act` on an LED of a checked configuration, or the chip reset
and a power-off. -/
theorem request_regsInv {i : Instr} {s u : State} (hi : i.isRequest = true) (hwf : s.image.wf = true)
    (hcfg : s.lifecycle = .attached → cfgValid s.config = true) (h : s.RegsInv) (hexec : exec i s = .next u) :
    u.RegsInv := by
  have hreset := resetWrite_regsInv hwf h
  have hanswer : ∀ {t : State} (r : Response), t.RegsInv → (t.respond r).RegsInv := fun r ht => regsInv_congr ht rfl rfl
  cases ht : i.target? with
  | some t =>
    rcases targetRequest_cases ht hexec with rfl | ⟨led, body, a, b, c, d, hl, hled, hb, rfl⟩
    · exact hanswer _ h
    · obtain ⟨r, hr⟩ := (gatedRequest i body s).conclude_eq a b c d
      have hmem := (cfgValid_led (hcfg hl) (targetLed_mem hled)).2.1
      rw [hr]
      exact hanswer r (acts_regsInv (gatedRequest_acts hb s) (fun c hc => ⟨(hmem c hc).1, (hmem c hc).2.2⟩) hwf
        (regsInv_congr h rfl rfl)).2
  | none =>
    cases i with
    | setBrightness | setBlink => cases ht
    | attach on off =>
      obtain rfl := Host.Outcome.next.inj hexec
      split
      · obtain ⟨r, hr⟩ := Micro.conclude_eq
          ((orRaise .bus (busWrite 0x00#8 0x07#8 s)).andThen attachEnumerate) 0#64 0#64 0#64 0#64
        rw [hr]
        refine hanswer r ?_
        rcases Micro.andThen_cases (orRaise .bus (busWrite 0x00#8 0x07#8 s)) attachEnumerate with
          ⟨_, heq⟩ | ⟨_, _, heq⟩ <;> rw [heq, orRaise_state]
        · obtain ⟨hc, himg⟩ := attachEnumerate_image (busWrite 0x00#8 0x07#8 s).2
          exact regsInv_congr hreset hc himg
        · exact hreset
      · exact hanswer _ h
    | detach on off =>
      obtain rfl := Host.Outcome.next.inj hexec
      split
      · refine hanswer _ (regsInv_congr (s := if _ then _ else _) ?_ rfl rfl)
        split
        · exact regsInv_congr (powerDisable_regsInv hreset) rfl rfl
        · exact hreset
      · exact hanswer _ h
    | shutdown on off =>
      obtain rfl := Host.Outcome.next.inj hexec
      split
      · exact hanswer _ (regsInv_congr hreset rfl rfl)
      · exact hanswer _ h
    | reservedOp0 | reservedOp67 | reservedOp8F =>
      obtain rfl := Host.Outcome.next.inj hexec
      exact hanswer _ h
    | _ => cases hi

theorem decodeRequest_isRequest (w : RequestWord) : (decodeRequest w).isRequest = true := by
  unfold decodeRequest
  dsimp only
  split <;> rfl

/-- Settles O54: the step is idle or runs the request that the host's word decodes to. -/
theorem stepKeepsRegisterRanges : Obligations.StepKeepsRegisterRanges := by
  intro s u hinv h hstep
  cases hp : s.pending with
  | nil =>
    rw [step_of_idle hp] at hstep
    obtain rfl := Host.Outcome.next.inj hstep
    exact h
  | cons w rest =>
    cases w with
    | bus w => exact absurd (hinv.hostOnly (.bus w) (by simp [hp])) Bool.false_ne_true
    | request w =>
      rw [step_of_decoded hp rfl] at hstep
      exact request_regsInv (s := s.setPending rest) (decodeRequest_isRequest w) hinv.imageWf
        (fun (hl : s.lifecycle = .attached) => hinv.configChecked (by rw [hl]; decide)) (regsInv_congr h rfl rfl) hstep

end Sys2Proof.Machine
end

section
/-! PROOFS. What the bus-transaction forms and a power-off do to the register image (20_memory.md R34, R37, R38, R39,
R41). -/

namespace Sys2Proof.Machine

open Sys2Proof

/-! ### The WRITE forms -/

/-- A WRITE form whose register exists is the block's own BusWrite (R59). -/
theorem exec_of_writeForm {i : Instr} {a v : Byte} {s : State} (hi : i.writeForm? = some (a, v))
    (ha : a.toNat < regCount s.config) : exec i s = .next (busWrite a v s).2 := by
  cases i with
  | wrIled3 code =>
    obtain ⟨rfl, rfl⟩ := Prod.mk.inj (Option.some.inj hi)
    exact if_pos ha
  | sleepCmd | wakeCmd | wrPeriod | wrPwm1 | wrIled0 | wrIled1 | wrIled2 =>
    obtain ⟨rfl, rfl⟩ := Prod.mk.inj (Option.some.inj hi)
    rfl
  | _ => cases hi

/-- None of these forms is the chip reset (R39). -/
theorem writeForm_ne_reset {i : Instr} {a v : Byte} (hi : i.writeForm? = some (a, v)) : ¬(a = 0x00#8 ∧ v = 0x07#8) := by
  cases i with
  | sleepCmd | wakeCmd | wrPeriod | wrPwm1 | wrIled0 | wrIled1 | wrIled2 | wrIled3 =>
    obtain ⟨rfl, rfl⟩ := Prod.mk.inj (Option.some.inj hi)
    simp
  | _ => cases hi

/-- A WRITE that is no chip reset, to a register of the chip: when it takes effect that register holds the byte, and every
other is as before (R37). -/
theorem busWrite_reg_of_ne_reset {a v : Byte} {s : State} (hwf : s.image.wf = true) (hv : ¬(a = 0x00#8 ∧ v = 0x07#8))
    (ha : a.toNat < regCount s.config) (b : Nat) :
    (busWrite a v s).2.reg b = if s.applies ∧ b = a.toNat then RegVal.full v else s.reg b := by
  rw [busWrite_reg a v hwf, if_neg hv]
  by_cases happ : s.applies = true <;> simp [happ, ha]

/-- Only a write to RESET_CTRL changes the record of the chip's power state (R24, R111). -/
theorem busWrite_chipMode_of_ne {a : Byte} (ha : a ≠ 0x00#8) (v : Byte) (s : State) :
    (busWrite a v s).2.chipMode = s.chipMode := by
  simp [modeAfterWrite, ha]

/-- Settles O11: each form is one BusWrite, whose effect on each register and field is known. -/
theorem writeFormsComplete : Obligations.WriteFormsComplete := by
  intro s i a v hi hwf ha
  refine ⟨_, exec_of_writeForm hi ha, fun b => ?_, ?_, fun hne => busWrite_chipMode_of_ne hne v s, ?_⟩
  · rw [busWrite_reg_of_ne_reset hwf (writeForm_ne_reset hi) ha]
    simp only [applies_iff]
  · simp [State.nextDraw_eq]
  · simp

/-- Settles O12: the reset puts the default image in place, the other two commands are WRITE forms. -/
theorem resetCtrlCommands : Obligations.ResetCtrlCommands := by
  intro s hwf
  have h0 : (0x00#8 : Byte).toNat < regCount s.config := Nat.lt_of_lt_of_le (by decide) (six_le_regCount s.config)
  have hcmd : ∀ {v : Byte}, v ≠ 0x07#8 → s.effective → (busWrite 0x00#8 v s).2.reg 0 = RegVal.full v ∧
      ∀ a, a ≠ 0 → (busWrite 0x00#8 v s).2.reg a = s.reg a := by
    intro v hv heff
    have hreg := busWrite_reg_of_ne_reset hwf (fun h => hv h.2) h0
    exact ⟨by simp [hreg, (applies_iff s).2 heff], fun a ha => by simp [hreg, ha]⟩
  refine ⟨⟨_, rfl, fun heff a ha => ?_, fun heff => ?_, ?_, ?_⟩, ⟨_, rfl, hcmd (by decide)⟩,
    ⟨_, rfl, hcmd (by decide)⟩⟩
  · rw [busWrite_reg _ _ hwf, if_pos ((applies_iff s).2 heff), if_pos ⟨rfl, rfl⟩, read_defaultImage, if_pos ha]
  · rw [busWrite_image, if_neg (mt (applies_iff s).1 heff)]
  · simp [State.nextDraw_eq]
  · simp

/-- WR_ILED3 runs exactly where the chip has a register at 0x09 (R34). -/
theorem exec_wrIled3 (code : Byte) (s : State) : exec (.wrIled3 code) s =
    if 4 ≤ s.config.channelCount then .next (busWrite 0x09#8 code s).2 else .fault (.noRegister 0x09#8) := by
  have hreg : 6 + 3 < regCount s.config ↔ 4 ≤ s.config.channelCount := by
    unfold regCount
    omega
  simp only [exec, execWrIled3, writeIled, hreg]
  rfl

/-- Settles O14: `exec_wrIled3` at 3 and at 4 channels. -/
theorem wrIled3NeedsChannelThree : Obligations.WrIled3NeedsChannelThree := by
  intro s code
  rw [exec_wrIled3]
  exact ⟨fun h3 => if_neg (by omega), fun h4 => ⟨_, if_pos (by omega)⟩⟩

/-! ### UPD_CTRL -/

theorem update_known_getLsbD (r : RegVal) (m v : Byte) (k : Nat) :
    (r.update m v).known.getLsbD k = (m.getLsbD k || r.known.getLsbD k) := by
  simp [RegVal.update, Bool.or_comm]

theorem update_bits_getLsbD (r : RegVal) (m v : Byte) {k : Nat} (hk : k < 8) :
    (r.update m v).bits.getLsbD k = if m.getLsbD k then v.getLsbD k else r.bits.getLsbD k := by
  simp only [RegVal.update, BitVec.getLsbD_or, BitVec.getLsbD_and, BitVec.getLsbD_not, hk]
  cases m.getLsbD k <;> simp

/-- Settles O13: UPD_CTRL is one BusUpdate of CHANNEL_CTRL, read bit by bit. -/
theorem updCtrlChangesMaskedBitsOnly : Obligations.UpdCtrlChangesMaskedBitsOnly := by
  intro s m v hwf
  have hreg := busUpdate_reg 0x04#8 m v hwf
  refine ⟨_, rfl, fun heff k hk => ?_, fun heff => ?_, fun a ha => ?_, ?_, ?_⟩
  · have h4 : 4 < regCount s.config := Nat.lt_of_lt_of_le (by decide) (six_le_regCount s.config)
    rw [hreg 4, if_pos ⟨(applies_iff s).2 heff, h4, rfl⟩]
    exact ⟨update_known_getLsbD _ m v k, update_bits_getLsbD _ m v hk⟩
  · rw [busUpdate_image, if_neg (mt (applies_iff s).1 heff)]
  · rw [hreg a, if_neg fun h => ha h.2.2]
  · simp [State.nextDraw_eq]
  · simp

/-! ### The power source -/

/-- Settles O16: a power-off that is answered OK leaves `imageAfterPowerOff`. -/
theorem powerOffLosesImage : Obligations.PowerOffLosesImage := by
  intro s hok
  rw [powerDisable_result] at hok
  have himg : (powerDisable s).2.image = imageAfterPowerOff s.config s.image := by rw [powerDisable_image, if_pos hok]
  constructor <;> intro hret
  · intro a
    rw [State.reg, himg, imageAfterPowerOff, hret, if_neg Bool.false_ne_true, RegImage.read_empty]
  · rw [himg, imageAfterPowerOff, if_pos hret]

end Sys2Proof.Machine
end

section
/-! PROOFS. Everything a request can leave before its response, and what it adds to the trace: each event with the answer it
took (00_scope.md R8; 20_memory.md R46, R48; 60_exceptions.md R102). -/

namespace Sys2Proof.Machine

open Sys2Proof

/-! ### Everything a request can do -/

/-- The three bodies that GATED runs on the LED `led` (R78, R89, R91). -/
inductive LedBody (led : Led) : (State → Micro) → Prop
  | brightness (v : Byte) : LedBody led (ledWrite led v)
  | alwaysOn : LedBody led (groupCtrl (ledMembers led) 1#2)
  | blink (on off : Millis) (s : State) : LedBody led (blinkWrites (ledMembers led) (blinkTiming on off s))

theorem LedBody.acts {led : Led} {body : State → Micro} (h : LedBody led body) (s : State) :
    Acts led s (body s).state := by
  cases h with
  | brightness v => exact ledWrite_acts led v s
  | alwaysOn => exact groupCtrl_acts led 1#2 s (by decide)
  | blink on off s' =>
    obtain ⟨h1, h2⟩ := blinkTiming_steps_bounds on off s'
    exact blinkWrites_acts led _ s h1 h2

/-- The chip reset sent, with whatever answer (R39). -/
def State.resetSent (s : State) : State := (busWrite 0x00#8 0x07#8 s).2

section
variable (s : State)
@[simp] theorem resetSent_lifecycle : s.resetSent.lifecycle = s.lifecycle := busWrite_lifecycle ..
@[simp] theorem resetSent_enabled : s.resetSent.enabled = s.enabled := busWrite_enabled ..
@[simp] theorem resetSent_psrcOn : s.resetSent.psrcOn = s.psrcOn := busWrite_psrcOn ..
@[simp] theorem resetSent_ledBright : s.resetSent.ledBright = s.ledBright := busWrite_ledBright ..
@[simp] theorem resetSent_chBright : s.resetSent.chBright = s.chBright := busWrite_chBright ..
@[simp] theorem resetSent_config : s.resetSent.config = s.config := busWrite_config ..
@[simp] theorem resetSent_responses : s.resetSent.responses = s.responses := busWrite_responses ..
@[simp] theorem resetSent_pending : s.resetSent.pending = s.pending := busWrite_pending ..
end

/-- The block's state at the end of a successful ATTACH (R95). -/
def State.initialised (s : State) : State :=
  (((s.setLedBright (List.replicate s.config.ledCount 0#8)).setChBright
    (List.replicate s.config.channelCount 0#8)).setEnabled false).setLifecycle .attached

/-- What a request can leave of `s` before it answers. -/
inductive Served (s : State) : State → Prop
  /-- ILLEGAL_REQUEST (R56, R61, R62). -/
  | illegal : Served s s
  /-- A request with a target (R79, R80, R93). -/
  | gated {led : Led} {body : State → Micro} {bNew : List Byte} (hl : s.lifecycle = .attached)
      (hled : led ∈ s.config.leds) (hb : LedBody led body) (hlen : bNew.length = s.ledBright.length) :
      Served s (gated s.ledBright bNew body (s.setLedBright bNew)).state
  /-- ATTACH whose reset write failed (R95). -/
  | unanswered (hl : mayAttach s.lifecycle = true) : Served s s.resetSent
  /-- ATTACH of a configuration that CFG_VALID refuses (R95). -/
  | misconfigured (hl : mayAttach s.lifecycle = true) : Served s (settleWait s.resetSent)
  /-- A successful ATTACH (R95). -/
  | attached (hl : mayAttach s.lifecycle = true) (hcfg : cfgValid s.config = true) :
      Served s (settleWait s.resetSent).initialised
  /-- DETACH of an enabled chip (R96). -/
  | poweredDown (hl : mayDetach s.lifecycle = true) :
      Served s (((powerDisable s.resetSent).2.setEnabled false).setLifecycle .removed)
  /-- DETACH of a disabled chip (R96). -/
  | removed (hl : mayDetach s.lifecycle = true) (he : s.enabled = false) : Served s (s.resetSent.setLifecycle .removed)
  /-- SHUTDOWN (R97). -/
  | shutDown (hl : s.lifecycle = .attached) : Served s (s.resetSent.setLifecycle .shutdown)

theorem setBlinkBody_served {t : BitVec 4} {led : Led} (on off : Millis) {s : State} (hl : s.lifecycle = .attached)
    (hled : led ∈ s.config.leds) : ∃ t' r, Served s t' ∧ setBlinkBody t led on off s = t'.respond r := by
  have hserved : ∀ {body : State → Micro} (bNew : List Byte) (a b c d : Millis), LedBody led body →
      bNew.length = s.ledBright.length →
      ∃ t' r, Served s t' ∧ (gated s.ledBright bNew body (s.setLedBright bNew)).conclude a b c d = t'.respond r := by
    intro body bNew a b c d hb hlen
    obtain ⟨r, hr⟩ := (gated s.ledBright bNew body (s.setLedBright bNew)).conclude_eq a b c d
    exact ⟨_, r, .gated hl hled hb hlen, hr⟩
  rcases setBlinkBody_cases t led on off s with ⟨_, _, h⟩ | ⟨_, _, h⟩ | ⟨_, _, h⟩ | ⟨_, _, h⟩ <;> rw [h]
  · exact hserved s.ledBright _ _ _ _ .alwaysOn rfl
  · exact hserved (s.ledBright.set t.toNat 0#8) _ _ _ _ (.brightness 0#8) List.length_set
  · exact hserved s.ledBright _ _ _ _ (.blink on off s) rfl
  · exact hserved s.ledBright _ _ _ _ (.blink 500#64 500#64 s) rfl

theorem attach_served {on off : Millis} {s u : State} (h : exec (.attach on off) s = .next u) :
    ∃ t r, Served s t ∧ u = t.respond r := by
  obtain rfl := Host.Outcome.next.inj h
  split
  · rename_i hl
    obtain ⟨r, hr⟩ := Micro.conclude_eq
      ((orRaise .bus (busWrite 0x00#8 0x07#8 s)).andThen attachEnumerate) 0#64 0#64 0#64 0#64
    refine ⟨_, r, ?_, hr⟩
    rcases Micro.andThen_cases (orRaise .bus (busWrite 0x00#8 0x07#8 s)) attachEnumerate with
      ⟨_, heq⟩ | ⟨_, _, heq⟩ <;> rw [heq, orRaise_state]
    · unfold attachEnumerate
      dsimp only
      split
      · rename_i hcfg
        exact .attached hl (by simpa using hcfg)
      · exact .misconfigured hl
    · exact .unanswered hl
  · exact ⟨s, _, .illegal, rfl⟩

theorem detach_served {on off : Millis} {s u : State} (h : exec (.detach on off) s = .next u) :
    ∃ t r, Served s t ∧ u = t.respond r := by
  obtain rfl := Host.Outcome.next.inj h
  split
  · rename_i hl
    refine ⟨_, _, ?_, rfl⟩
    split
    · exact .poweredDown hl
    · rename_i he
      exact .removed hl (by simpa using he)
  · exact ⟨s, _, .illegal, rfl⟩

/-- Everything a request can do: it leaves one of these states and answers. -/
theorem request_served {i : Instr} {s u : State} (hi : i.isRequest = true) (h : exec i s = .next u) :
    ∃ t r, Served s t ∧ u = t.respond r := by
  cases i with
  | setBrightness t v on off =>
    rcases targetRequest_cases rfl h with rfl | ⟨led, _, _, _, _, _, hl, hled, _, _⟩
    · exact ⟨s, _, .illegal, rfl⟩
    · obtain rfl := Host.Outcome.next.inj ((execSetBrightness_eq hl t v on off hled).symm.trans h)
      obtain ⟨r, hr⟩ := (setBrightnessBody t led v s).conclude_eq 0#64 0#64 0#64 0#64
      exact ⟨_, r, .gated hl (targetLed_mem hled) (.brightness v) List.length_set, hr⟩
  | setBlink t on off =>
    rcases targetRequest_cases rfl h with rfl | ⟨led, _, _, _, _, _, hl, hled, _, _⟩
    · exact ⟨s, _, .illegal, rfl⟩
    · obtain rfl := Host.Outcome.next.inj ((execSetBlink_eq hl t on off hled).symm.trans h)
      exact setBlinkBody_served on off hl (targetLed_mem hled)
  | attach on off => exact attach_served h
  | detach on off => exact detach_served h
  | shutdown on off =>
    obtain rfl := Host.Outcome.next.inj h
    split
    · rename_i hl
      exact ⟨_, _, .shutDown (by simpa [mayUse] using hl), rfl⟩
    · exact ⟨s, _, .illegal, rfl⟩
  | reservedOp0 | reservedOp67 | reservedOp8F =>
    obtain rfl := Host.Outcome.next.inj h
    exact ⟨s, _, .illegal, rfl⟩
  | _ => cases hi

/-! ### The events and the answers they took -/

/-- From `s` to `u` the events `es` were appended, and each bus or power event of them took the next answer and carries its
result. -/
structure Records (s u : State) (es : List Event) : Prop where
  trace : u.trace = s.trace ++ es
  drawn : u.drawn = s.drawn + (es.filter Event.drawn).length
  drawAt : ∀ k, u.drawAt k = s.drawAt (k + (es.filter Event.drawn).length)
  results : ∀ (k : Nat) (e : Event), (es.filter Event.drawn)[k]? = some e → e.result? = some (s.drawAt k).result

/-- Where neither the trace nor the answers to come change, nothing was emitted. -/
theorem records_nil {s u : State} (htrace : u.trace = s.trace) (hdraws : u.draws = s.draws) (hdrawn : u.drawn = s.drawn) :
    Records s u [] where
  trace := by simpa using htrace
  drawn := hdrawn
  drawAt := State.drawAt_congr hdraws hdrawn
  results _ _ h := by cases h

theorem Records.trans {s t u : State} {es es' : List Event} (h : Records s t es) (h' : Records t u es') :
    Records s u (es ++ es') where
  trace := by rw [h'.trace, h.trace, List.append_assoc]
  drawn := by rw [h'.drawn, h.drawn, List.filter_append, List.length_append, Nat.add_assoc]
  drawAt k := by rw [h'.drawAt, h.drawAt, List.filter_append, List.length_append]; congr 1; omega
  results k e he := by
    rw [List.filter_append, List.getElem?_append] at he
    split at he
    · exact h.results k e he
    · rw [h'.results _ e he, h.drawAt, Nat.sub_add_cancel (by omega)]

/-- One call on the bus port or the power-source port. -/
theorem records_of_call {s u : State} {e : Event} (hd : e.drawn = true) (hr : e.result? = some (s.drawAt 0).result)
    (htrace : u.trace = s.trace ++ [e]) (hdrawn : u.drawn = s.drawn + 1) (hdrawAt : ∀ k, u.drawAt k = s.drawAt (k + 1)) :
    Records s u [e] where
  trace := htrace
  drawn := by simpa [hd] using hdrawn
  drawAt := by simpa [hd] using hdrawAt
  results k e' he := by
    rw [List.filter_cons_of_pos hd, List.filter_nil, List.getElem?_singleton] at he
    split at he
    · rename_i hk
      rw [← Option.some.inj he, hr, hk]
    · cases he

section
variable (s : State)

theorem busWrite_records (a v : Byte) : Records s (busWrite a v s).2 [.bus .write a 0xFF#8 v (s.drawAt 0).result] :=
  records_of_call rfl rfl (by simp [State.nextDraw_eq]) (by simp) (by simp)

theorem busUpdate_records (a m v : Byte) :
    Records s (busUpdate a m v s).2 [.bus .update a m v (s.drawAt 0).result] :=
  records_of_call rfl rfl (by simp [State.nextDraw_eq]) (by simp) (by simp)

theorem powerEnable_records : Records s (powerEnable s).2 [.pwr .enable (s.drawAt 0).result] :=
  records_of_call rfl rfl (by simp [State.nextDraw_eq]) (by simp) (by simp)

theorem powerDisable_records : Records s (powerDisable s).2 [.pwr .disable (s.drawAt 0).result] :=
  records_of_call rfl rfl (by simp [State.nextDraw_eq]) (by simp) (by simp)

/-- The settle wait takes no answer. -/
theorem settleWait_records : Records s (settleWait s) [.wait s.config.settleUs] where
  trace := rfl
  drawn := rfl
  drawAt _ := rfl
  results _ _ h := by cases h

end

theorem act_records {led : Led} {s u : State} (h : Act led s u) : ∃ es, Records s u es := by
  cases h with
  | wake | sleep | period | duty | iled => exact ⟨_, busWrite_records s _ _⟩
  | field | fields => exact ⟨_, busUpdate_records s _ _ _⟩
  | enable => exact ⟨_, powerEnable_records s⟩
  | disable => exact ⟨_, powerDisable_records s⟩
  | flag | bright => exact ⟨[], records_nil rfl rfl rfl⟩

theorem acts_records {led : Led} {s u : State} (h : Acts led s u) : ∃ es, Records s u es := by
  induction h with
  | refl => exact ⟨[], records_nil rfl rfl rfl⟩
  | step _ hact ih =>
    obtain ⟨es, hes⟩ := ih
    obtain ⟨es', hes'⟩ := act_records hact
    exact ⟨es ++ es', hes.trans hes'⟩

theorem served_records {s t : State} (h : Served s t) : ∃ es, Records s t es := by
  have hreset := busWrite_records s 0x00#8 0x07#8
  cases h with
  | illegal => exact ⟨[], records_nil rfl rfl rfl⟩
  | gated _ _ hb _ =>
    obtain ⟨es, hes⟩ := acts_records (gated_acts (s := s.setLedBright _) hb.acts)
    exact ⟨es, hes.trace, hes.drawn, hes.drawAt, hes.results⟩
  | unanswered => exact ⟨_, hreset⟩
  | misconfigured => exact ⟨_, hreset.trans (settleWait_records _)⟩
  | attached =>
    have hwait := hreset.trans (settleWait_records _)
    exact ⟨_, hwait.trace, hwait.drawn, hwait.drawAt, hwait.results⟩
  | poweredDown =>
    have hoff := hreset.trans (powerDisable_records _)
    exact ⟨_, hoff.trace, hoff.drawn, hoff.drawAt, hoff.results⟩
  | removed | shutDown => exact ⟨_, hreset.trace, hreset.drawn, hreset.drawAt, hreset.results⟩

/-- No request writes the configuration or the waiting words, and only its answer is a response. -/
theorem served_frame {s t : State} (h : Served s t) :
    t.config = s.config ∧ t.pending = s.pending ∧ t.responses = s.responses := by
  cases h with
  | gated _ _ hb _ =>
    obtain ⟨hcfg, _, _, hresp, hpend, _⟩ := acts_frame (gated_acts (s := s.setLedBright _) hb.acts)
    exact ⟨hcfg, hpend, hresp⟩
  | _ => simp [State.initialised]

/-- Settles O55: every request is total (`exec_blind`), and leaves a `Served` state and its answer. -/
theorem requestAppendsEventsAndOneResponse : Obligations.RequestAppendsEventsAndOneResponse := by
  intro i s hi
  obtain ⟨f, hf, _⟩ := exec_blind hi
  obtain ⟨t, r, hserved, hu⟩ := request_served hi (hf s)
  obtain ⟨es, hes⟩ := served_records hserved
  obtain ⟨hcfg, hpend, hresp⟩ := served_frame hserved
  refine ⟨t.respond r, es, r, hu ▸ hf s, hes.trace, by simp [hresp], hcfg, hpend, hes.drawn, hes.drawAt, fun k => ?_⟩
  split
  · rename_i hk
    rw [List.getElem?_eq_getElem hk, Option.map_some, hes.results k _ (List.getElem?_eq_getElem hk)]
  · rename_i hk
    rw [List.getElem?_eq_none (by omega), Option.map_none]

end Sys2Proof.Machine
end

section
/-! PROOFS. Every step keeps the machine's invariant while only the host presents words: the register image, the legality of
the events (30_encoding.md R59; 70_reset_and_hazards.md R116), and `ENABLED` with the power source and the chip
(40_power_controller.md R68, R69). -/

namespace Sys2Proof.Machine

open Sys2Proof

/-! ### The register image -/

/-- A register stores 0 for each bit that holds no value. -/
def RegVal.Clean (r : RegVal) : Prop := r.bits &&& ~~~r.known = 0#8

theorem RegVal.noValue_clean : RegVal.noValue.Clean := by
  simp [RegVal.Clean, RegVal.noValue]

theorem RegVal.full_clean (v : Byte) : (RegVal.full v).Clean := by
  simp [RegVal.Clean, RegVal.full]

theorem RegVal.Clean.update {r : RegVal} (h : r.Clean) (m v : Byte) : (r.update m v).Clean := by
  unfold RegVal.Clean RegVal.update at *
  ext k hk
  have hbit := congrArg (fun b : Byte => b[k]) h
  simp only [BitVec.getElem_and, BitVec.getElem_not, BitVec.getElem_or, BitVec.getElem_zero] at hbit ⊢
  grind

/-- What the invariant says of the register image of a chip with the parameters `p`. -/
structure ImageInv (p : Params) (g : RegImage) : Prop where
  wf : g.wf = true
  clean : ∀ a, (g.read a).Clean
  registersOnly : ∀ a, regCount p ≤ a → g.read a = RegVal.noValue

theorem imageInv_empty (p : Params) : ImageInv p RegImage.empty where
  wf := RegImage.wf_empty
  clean _ := RegVal.noValue_clean
  registersOnly _ _ := rfl

theorem imageInv_default (p : Params) : ImageInv p (defaultImage p) where
  wf := wf_defaultImage p
  clean a := by
    rw [read_defaultImage]
    split
    · exact RegVal.full_clean _
    · exact RegVal.noValue_clean
  registersOnly a ha := by rw [read_defaultImage, if_neg (by omega)]

theorem ImageInv.write {p : Params} {g : RegImage} (h : ImageInv p g) {a : Nat} (ha : a < regCount p) {r : RegVal}
    (hr : r.Clean) : ImageInv p (g.write a r) where
  wf := RegImage.wf_write h.wf a r
  clean b := by
    rw [RegImage.read_write h.wf]
    split
    · exact hr
    · exact h.clean b
  registersOnly b hb := by rw [RegImage.read_write h.wf, if_neg (by omega), h.registersOnly b hb]

theorem ImageInv.applyWrite {p : Params} {g : RegImage} (h : ImageInv p g) (a v : Byte) :
    ImageInv p (applyWrite p a v g) := by
  unfold Machine.applyWrite
  split
  · exact imageInv_default p
  · split
    · rename_i ha
      exact h.write ha (RegVal.full_clean v)
    · exact h

theorem ImageInv.applyUpdate {p : Params} {g : RegImage} (h : ImageInv p g) (a m v : Byte) :
    ImageInv p (applyUpdate p a m v g) := by
  unfold Machine.applyUpdate
  split
  · rename_i ha
    exact h.write ha ((h.clean _).update m v)
  · exact h

/-! ### The legality of the events (R59) -/

theorem decodeBus_write (a v : Byte) : decodeBus (busWord .write a 0xFF#8 v) = decodeWrite a v := by
  obtain ⟨hkind, haddr, hmask, hdata⟩ := busWord_fields .write a 0xFF#8 v
  simp [decodeBus, hkind, haddr, hmask, hdata, BusKind.code]

theorem decodeBus_update (m v : Byte) : decodeBus (busWord .update 0x04#8 m v) = .ok (.updCtrl m v) := by
  obtain ⟨hkind, haddr, hmask, hdata⟩ := busWord_fields .update 0x04#8 m v
  simp [decodeBus, hkind, haddr, hmask, hdata, BusKind.code]

/-- A WRITE is legal as the form that it decodes to is well formed. -/
theorem write_legal {p : Params} {a v : Byte} {i : Instr} (hd : decodeWrite a v = .ok i)
    (hi : i.wellFormed p.channelCount = true) (r : Result) : (Event.bus .write a 0xFF#8 v r).legal p = true := by
  simp only [Event.legal, decodeBus_write, hd, hi]

/-- The current codes of the chip's channels are legal (R30, R77). -/
theorem iledWrite_legal {p : Params} {c : Nat} (hn : p.channelCount ≤ 4) (hc : c < p.channelCount) (b : Byte)
    (r : Result) : (Event.bus .write (iledAddr c) 0xFF#8 (iledCode b) r).legal p = true := by
  have hcode := iledCode_le b
  have hc4 : c < 4 := by omega
  interval_cases c
  · exact write_legal (i := .wrIled0 (iledCode b)) rfl (by simpa [Instr.wellFormed] using hcode) r
  · exact write_legal (i := .wrIled1 (iledCode b)) rfl (by simpa [Instr.wellFormed] using hcode) r
  · exact write_legal (i := .wrIled2 (iledCode b)) rfl (by simpa [Instr.wellFormed] using hcode) r
  · have h4 : p.channelCount = 4 := by omega
    exact write_legal (i := .wrIled3 (iledCode b)) rfl (by simpa [Instr.wellFormed, h4] using hcode) r

/-! ### The masks and data of UPD_CTRL (R28, R59, R60) -/

/-- A byte cut to the mask of field `c` is that field put in its place. -/
theorem and_fieldMask (b : Byte) {c : Nat} (hc : c < 4) : b &&& fieldMask c = ctrlData c (b.extractLsb' (2 * c) 2) := by
  interval_cases c <;> ext k hk <;> interval_cases k <;> simp [fieldMask, ctrlData]

theorem ctrlData_inj {c : Nat} (hc : c < 4) (f g : BitVec 2) : ctrlData c f = ctrlData c g ↔ f = g := by
  interval_cases c <;> revert f g <;> decide

theorem and_fieldMask_eq_zero (b : Byte) {c : Nat} (hc : c < 4) :
    b &&& fieldMask c = 0#8 ↔ b.extractLsb' (2 * c) 2 = 0#2 := by
  have hzero : 0#8 = ctrlData c 0#2 := by simp [ctrlData]
  rw [and_fieldMask b hc, hzero, ctrlData_inj hc]

theorem and_fieldMask_eq_self (b : Byte) {c : Nat} (hc : c < 4) :
    b &&& fieldMask c = fieldMask c ↔ b.extractLsb' (2 * c) 2 = 3#2 := by
  have hself : fieldMask c = ctrlData c 3#2 := rfl
  rw [and_fieldMask b hc, hself, ctrlData_inj hc]

theorem wholeField_iff (b : Byte) {c : Nat} (hc : c < 4) :
    wholeField b c = true ↔ b.extractLsb' (2 * c) 2 = 0#2 ∨ b.extractLsb' (2 * c) 2 = 3#2 := by
  simp only [wholeField, Bool.or_eq_true, beq_iff_eq, and_fieldMask_eq_zero b hc, and_fieldMask_eq_self b hc]

theorem ctrlMaskOk_iff (n : Nat) (m : Byte) : ctrlMaskOk n m = true ↔ m ≠ 0#8 ∧ ∀ c, c < 4 →
    (m.extractLsb' (2 * c) 2 = 0#2 ∨ m.extractLsb' (2 * c) 2 = 3#2) ∧ (c < n ∨ m.extractLsb' (2 * c) 2 = 0#2) := by
  simp only [ctrlMaskOk, Bool.and_eq_true, bne_iff_ne, List.all_eq_true, List.mem_range, Bool.or_eq_true,
    decide_eq_true_eq, beq_iff_eq]
  refine and_congr_right fun _ => forall₂_congr fun c hc => ?_
  rw [wholeField_iff m hc, and_fieldMask_eq_zero m hc]

theorem ctrlDataOk_iff (m v : Byte) : ctrlDataOk m v = true ↔
    v &&& ~~~m = 0#8 ∧ ∀ c, c < 4 → v.extractLsb' (2 * c) 2 ≠ 3#2 := by
  simp only [ctrlDataOk, Bool.and_eq_true, bne_iff_ne, List.all_eq_true, List.mem_range, beq_iff_eq, ne_eq]
  refine and_congr_right fun _ => forall₂_congr fun c hc => ?_
  rw [and_fieldMask_eq_self v hc]

/-- The mask of a group covers each member's field as a whole. -/
theorem groupMask_member {cs : List Nat} {c : Nat} (hc : c ∈ cs) (h4 : ∀ c ∈ cs, c < 4) :
    (groupMask cs).extractLsb' (2 * c) 2 = 3#2 := by
  have h := (groupField cs 0#2 RegVal.noValue c hc h4).1
  simpa [RegVal.update, RegVal.noValue] using h

theorem or_inside {a b ma mb : Byte} (ha : a &&& ~~~ma = 0#8) (hb : b &&& ~~~mb = 0#8) :
    (a ||| b) &&& ~~~(ma ||| mb) = 0#8 := by
  ext k hk
  have hak := congrArg (fun x : Byte => x[k]) ha
  have hbk := congrArg (fun x : Byte => x[k]) hb
  simp only [BitVec.getElem_and, BitVec.getElem_not, BitVec.getElem_or, BitVec.getElem_zero] at hak hbk ⊢
  grind

theorem ctrlData_inside (f : BitVec 2) {c : Nat} (hc : c < 4) : ctrlData c f &&& ~~~ctrlMask c = 0#8 := by
  interval_cases c <;> revert f <;> decide

/-- The data of a group lie inside its mask. -/
theorem groupData_inside (f : BitVec 2) {cs : List Nat} (h4 : ∀ c ∈ cs, c < 4) :
    groupData f cs &&& ~~~groupMask cs = 0#8 := by
  induction cs with
  | nil => simp [groupData]
  | cons c cs ih => exact or_inside (ctrlData_inside f (h4 c (by simp))) (ih fun d hd => h4 d (by simp [hd]))

/-- The data of a group hold the mode in each member's field and 0 in every other (R76). -/
theorem groupData_field (f : BitVec 2) {cs : List Nat} (h4 : ∀ c ∈ cs, c < 4) {c : Nat} (hc : c < 4) :
    (groupData f cs).extractLsb' (2 * c) 2 = if c ∈ cs then f else 0#2 := by
  have hcut : groupData f cs &&& groupMask cs = groupData f cs := by
    have hin := groupData_inside f h4
    ext k hk
    have hk' := congrArg (fun x : Byte => x[k]) hin
    simp only [BitVec.getElem_and, BitVec.getElem_not, BitVec.getElem_zero] at hk' ⊢
    grind
  split
  · rename_i hmem
    have h := (groupField cs f RegVal.noValue c hmem h4).2
    simpa [RegVal.update, RegVal.noValue, hcut] using h
  · rename_i hmem
    rw [← hcut, extract_and, groupMask_other cs c h4 hc hmem, BitVec.and_zero]

/-- One update of the control fields of channels of the chip, to a mode other than `11`, is legal (R28, R59, R76). -/
theorem groupUpdate_legal {p : Params} {cs : List Nat} {f : BitVec 2} (hne : cs ≠ [])
    (hcs : ∀ c ∈ cs, c < 4 ∧ c < p.channelCount) (hf : f ≠ 3#2) (r : Result) :
    (Event.bus .update 0x04#8 (groupMask cs) (groupData f cs) r).legal p = true := by
  have h4 : ∀ c ∈ cs, c < 4 := fun c hc => (hcs c hc).1
  have hmask : ctrlMaskOk p.channelCount (groupMask cs) = true := by
    refine (ctrlMaskOk_iff ..).2 ⟨fun hzero => ?_, fun c hc => ?_⟩
    · obtain ⟨c, hc⟩ := List.exists_mem_of_ne_nil cs hne
      have h3 := groupMask_member hc h4
      rw [hzero] at h3
      simp at h3
    · by_cases hmem : c ∈ cs
      · exact ⟨.inr (groupMask_member hmem h4), .inl (hcs c hmem).2⟩
      · have h0 := groupMask_other cs c h4 hc hmem
        exact ⟨.inl h0, .inr h0⟩
  have hdata : ctrlDataOk (groupMask cs) (groupData f cs) = true := by
    refine (ctrlDataOk_iff ..).2 ⟨groupData_inside f h4, fun c hc => ?_⟩
    rw [groupData_field f h4 hc]
    split
    · exact hf
    · decide
  simp only [Event.legal, decodeBus_update, Instr.wellFormed, hmask, hdata, Bool.and_self]

/-! ### The image and the trace together -/

/-- The part of the invariant that each single action of a request keeps. -/
def State.Lawful (s : State) : Prop := ImageInv s.config s.image ∧ ∀ e ∈ s.trace, e.legal s.config = true

theorem legal_append {p : Params} {es : List Event} (h : ∀ e ∈ es, e.legal p = true) {e : Event}
    (he : e.legal p = true) : ∀ e' ∈ es ++ [e], e'.legal p = true :=
  List.forall_mem_append.2 ⟨h, List.forall_mem_singleton.2 he⟩

theorem busWrite_lawful {a v : Byte} {s : State} (h : s.Lawful)
    (hl : ∀ r, (Event.bus .write a 0xFF#8 v r).legal s.config = true) : (busWrite a v s).2.Lawful := by
  obtain ⟨himg, htrace⟩ := h
  rw [State.Lawful, busWrite_config, busWrite_image, busWrite_trace]
  refine ⟨?_, legal_append htrace (hl _)⟩
  split
  · exact himg.applyWrite a v
  · exact himg

theorem busUpdate_lawful {a m v : Byte} {s : State} (h : s.Lawful)
    (hl : ∀ r, (Event.bus .update a m v r).legal s.config = true) : (busUpdate a m v s).2.Lawful := by
  obtain ⟨himg, htrace⟩ := h
  rw [State.Lawful, busUpdate_config, busUpdate_image, busUpdate_trace]
  refine ⟨?_, legal_append htrace (hl _)⟩
  split
  · exact himg.applyUpdate a m v
  · exact himg

theorem powerEnable_lawful {s : State} (h : s.Lawful) : (powerEnable s).2.Lawful := by
  obtain ⟨himg, htrace⟩ := h
  rw [State.Lawful, powerEnable_config, powerEnable_image, powerEnable_trace]
  exact ⟨himg, legal_append htrace rfl⟩

theorem powerDisable_lawful {s : State} (h : s.Lawful) : (powerDisable s).2.Lawful := by
  obtain ⟨himg, htrace⟩ := h
  rw [State.Lawful, powerDisable_config, powerDisable_trace]
  refine ⟨?_, legal_append htrace rfl⟩
  rcases powerDisable_image_cases s with heq | heq <;> rw [heq]
  · exact himg
  · exact imageInv_empty _

/-- The settle time lies within its bounds by type (R116). -/
theorem settleUs_bounds (p : Params) : 200 ≤ p.settleUs ∧ p.settleUs ≤ 300 := by
  unfold Params.settleUs
  omega

theorem settleWait_lawful {s : State} (h : s.Lawful) : (settleWait s).Lawful := by
  obtain ⟨himg, htrace⟩ := h
  have hwait : (Event.wait s.config.settleUs).legal s.config = true := by
    simp [Event.legal, settleUs_bounds s.config]
  exact ⟨himg, legal_append htrace hwait⟩

theorem resetSent_lawful {s : State} (h : s.Lawful) : s.resetSent.Lawful :=
  busWrite_lawful h (write_legal (i := .resetCmd) rfl rfl)

/-- A checked LED has a member (R94). -/
theorem ledMembers_ne_nil {p : Params} (h : cfgValid p = true) {led : Led} (hled : led ∈ p.leds) :
    ledMembers led ≠ [] := by
  simp only [cfgValid, Bool.and_eq_true, List.all_eq_true] at h
  have hvalid := h.1.1.2 led hled
  cases led with
  | single c => simp [ledMembers]
  | group ms =>
    simp only [ledValid, Bool.and_eq_true, decide_eq_true_eq] at hvalid
    rw [ledMembers, ne_eq, List.map_eq_nil_iff, ← List.length_eq_zero_iff]
    omega

/-- One action of a request on an LED of a checked configuration. -/
theorem act_lawful {led : Led} {s u : State} (hact : Act led s u) (hcfg : cfgValid s.config = true)
    (hled : led ∈ s.config.leds) (h : s.Lawful) : u.Lawful := by
  obtain ⟨_, hmem, hn, _⟩ := cfgValid_led hcfg hled
  cases hact with
  | wake => exact busWrite_lawful h (write_legal (i := .wakeCmd) rfl rfl)
  | sleep => exact busWrite_lawful h (write_legal (i := .sleepCmd) rfl rfl)
  | period n _ h1 h2 =>
    exact busWrite_lawful h (write_legal (i := .wrPeriod n) rfl (by simp [Instr.wellFormed, h1, h2]))
  | duty code => exact busWrite_lawful h (write_legal (i := .wrPwm1 code) rfl rfl)
  | iled c b _ hc => exact busWrite_lawful h (iledWrite_legal hn (hmem c hc).2.2 b)
  | field c f _ hc hf =>
    have hone := groupUpdate_legal (p := s.config) (cs := [c]) (by simp)
      (by simpa using ⟨(hmem c hc).1, (hmem c hc).2.2⟩) hf
    simp only [groupMask, groupData, BitVec.or_zero] at hone
    exact busUpdate_lawful h hone
  | fields f _ hf =>
    exact busUpdate_lawful h (groupUpdate_legal (ledMembers_ne_nil hcfg hled)
      (fun c hc => ⟨(hmem c hc).1, (hmem c hc).2.2⟩) hf)
  | enable => exact powerEnable_lawful h
  | disable => exact powerDisable_lawful h
  | flag | bright => exact h

theorem acts_lawful {led : Led} {s u : State} (hacts : Acts led s u) (hcfg : cfgValid s.config = true)
    (hled : led ∈ s.config.leds) (h : s.Lawful) : u.Lawful := by
  induction hacts with
  | refl => exact h
  | step hrun hact ih =>
    have heq := (acts_frame hrun).1
    exact act_lawful hact (by rwa [heq]) (by rwa [heq]) ih

/-! ### `ENABLED`, the power source and the chip's mode -/

/-- While `ENABLED` is 1 the power source is on and the chip's last command is wake or sleep (R68, R123). -/
def State.EnabledOk (s : State) : Prop :=
  s.enabled = true → s.psrcOn = true ∧ (s.chipMode = .awake ∨ s.chipMode = .asleep)

theorem enabledOk_of_disabled {s : State} (h : s.enabled = false) : s.EnabledOk := fun he => by
  rw [h] at he
  cases he

theorem enabledOk_congr {s u : State} (h : s.EnabledOk) (hen : u.enabled = s.enabled) (hpsrc : u.psrcOn = s.psrcOn)
    (hmode : u.chipMode = s.chipMode) : u.EnabledOk := by
  rw [State.EnabledOk, hen, hpsrc, hmode]
  exact h

/-- A wake that raises nothing took effect on a powered chip (R68). -/
theorem ensureEnabled_enabledOk {s : State} (h : s.EnabledOk) : (ensureEnabled s).state.EnabledOk := by
  rcases ensureEnabled_cases s with ⟨_, heq⟩ | ⟨hen, _, heq⟩ | ⟨_, h0, h1, heq⟩ | ⟨hen, _, _, heq⟩
  · rwa [heq]
  · exact enabledOk_of_disabled (by simp [heq, hen])
  · have hok : s.okFor 2 := (okFor_two_iff s).2 ⟨h0, h1⟩
    rw [heq]
    exact fun _ => ⟨woken_psrcOn hok, .inl (woken_chipMode hok)⟩
  · exact enabledOk_of_disabled (by simp [heq, hen])

/-- A power-down that the power source refused leaves a powered chip, asleep or as it was (R69). -/
theorem ensureDisabled_enabledOk {s : State} (h : s.EnabledOk) : (ensureDisabled s).EnabledOk := by
  rcases ensureDisabled_cases s with ⟨_, heq⟩ | ⟨_, _, heq⟩ | ⟨hen, hr, heq⟩ <;> rw [heq]
  · exact h
  · exact enabledOk_of_disabled rfl
  · obtain ⟨hpsrc, hmode⟩ := h hen
    have herr : (busWrite 0x00#8 0x08#8 s).2.nextDraw.result = .err := by simpa [State.nextDraw_eq] using hr
    refine fun _ => ⟨by simpa [herr] using hpsrc, ?_⟩
    rw [powerDisable_chipMode, herr, if_neg (by decide), busWrite_chipMode]
    split
    · exact .inr rfl
    · exact hmode

theorem blinkWrites_psrcOn (cs : List Nat) (g : Timing) (s : State) : (blinkWrites cs g s).state.psrcOn = s.psrcOn := by
  rcases blinkWrites_cases cs g s with ⟨_, h⟩ | ⟨_, _, h⟩ | ⟨_, _, h⟩ <;> simp [h]

/-- No body of a request touches `ENABLED`, the power source or the chip's mode. -/
theorem LedBody.enabledOk {led : Led} {body : State → Micro} (hb : LedBody led body)
    (hled : ∀ c ∈ ledMembers led, c < 4) {s : State} (h : s.EnabledOk) : (body s).state.EnabledOk := by
  cases hb with
  | brightness v =>
    refine enabledOk_congr h (writeChannels_enabled _ s) (writeChannels_psrcOn _ s)
      (writeChannels_chipMode _ s fun x hx => ?_)
    have := hled x.1 (by rw [← ledOutputs_fst v]; exact List.mem_map_of_mem hx)
    omega
  | alwaysOn => exact enabledOk_congr h (by simp) (by simp) (by simp)
  | blink on off s' =>
    exact enabledOk_congr h (blinkWrites_enabled _ _ s) (blinkWrites_psrcOn _ _ s) (blinkWrites_chipMode _ _ s)

/-! ### The invariant -/

theorem State.Inv.lawful {s : State} (h : s.Inv) : s.Lawful :=
  ⟨⟨h.imageWf, h.bitsKnown, h.registersOnly⟩, h.traceLegal⟩

/-- The invariant of a state with the configuration and the waiting words of one that has it. -/
theorem inv_of_parts {s u : State} (h : s.Inv) (hcfg : u.config = s.config) (hpend : u.pending = s.pending)
    (hlaw : u.Lawful) (hled : u.ledBright.length = s.config.ledCount) (hch : u.chBright.length = s.config.channelCount)
    (hvalid : u.lifecycle ≠ .uninit → cfgValid s.config = true)
    (hen : u.enabled = true → (u.lifecycle = .attached ∨ u.lifecycle = .shutdown) ∧ u.psrcOn = true ∧
      (u.lifecycle = .attached → u.chipMode = .awake ∨ u.chipMode = .asleep)) : u.Inv where
  imageWf := hlaw.1.wf
  bitsKnown := hlaw.1.clean
  registersOnly := hlaw.1.registersOnly
  ledLength := by rw [hled, hcfg]
  chLength := by rw [hch, hcfg]
  configChecked := by rwa [hcfg]
  enabledWhere he := (hen he).1
  enabledPowered he := (hen he).2.1
  enabledMode hl he := (hen he).2.2 hl
  traceLegal := hlaw.2
  hostOnly := by rw [hpend]; exact h.hostOnly

/-- A request that leaves the brightnesses alone and the block disabled. -/
theorem inv_of_disabled {s u : State} (h : s.Inv) (hcfg : u.config = s.config) (hpend : u.pending = s.pending)
    (hlaw : u.Lawful) (hled : u.ledBright = s.ledBright) (hch : u.chBright = s.chBright)
    (hvalid : u.lifecycle ≠ .uninit → cfgValid s.config = true) (hen : u.enabled = false) : u.Inv :=
  inv_of_parts h hcfg hpend hlaw (by rw [hled, h.ledLength]) (by rw [hch, h.chLength]) hvalid fun he => by
    rw [hen] at he
    cases he

/-- The block is disabled where ATTACH is legal (R62). -/
theorem State.Inv.disabled_of_mayAttach {s : State} (h : s.Inv) (hl : mayAttach s.lifecycle = true) :
    s.enabled = false := by
  by_contra hen
  rcases h.enabledWhere (by simpa using hen) with hlc | hlc <;> simp [mayAttach, hlc] at hl

theorem State.Inv.cfgValid_of_mayDetach {s : State} (h : s.Inv) (hl : mayDetach s.lifecycle = true) :
    cfgValid s.config = true :=
  h.configChecked fun hlc => by simp [mayDetach, hlc] at hl

theorem gated_inv {led : Led} {body : State → Micro} {bNew : List Byte} {s : State} (h : s.Inv)
    (hl : s.lifecycle = .attached) (hled : led ∈ s.config.leds) (hb : LedBody led body)
    (hlen : bNew.length = s.ledBright.length) : (gated s.ledBright bNew body (s.setLedBright bNew)).state.Inv := by
  have hvalid : cfgValid s.config = true := h.configChecked (by simp [hl])
  have hmem := (cfgValid_led hvalid hled).2.1
  have hacts : Acts led (s.setLedBright bNew) (gated s.ledBright bNew body (s.setLedBright bNew)).state :=
    gated_acts hb.acts
  obtain ⟨hcfg, hlc, hlb, _, hpend, _, hch⟩ := acts_frame hacts
  have hok : (gated s.ledBright bNew body (s.setLedBright bNew)).state.EnabledOk :=
    gated_keeps State.EnabledOk (fun _ => ensureEnabled_enabledOk)
      (fun _ => hb.enabledOk fun c hc => (hmem c hc).1) (fun _ => ensureDisabled_enabledOk)
      (fun he => ⟨h.enabledPowered he, h.enabledMode hl he⟩)
  refine inv_of_parts h hcfg hpend (acts_lawful hacts hvalid hled h.lawful) ?_ ?_ (fun _ => hvalid) fun he => ?_
  · rw [hlb, State.setLedBright_ledBright, hlen, h.ledLength]
  · rw [hch, State.setLedBright_chBright, h.chLength]
  · obtain ⟨hpsrc, hmode⟩ := hok he
    exact ⟨.inl (hlc.trans hl), hpsrc, fun _ => hmode⟩

/-- Whatever a request leaves before its answer, it keeps the invariant. -/
theorem served_inv {s t : State} (h : s.Inv) (hs : Served s t) : t.Inv := by
  obtain ⟨hcfg, hpend, _⟩ := served_frame hs
  have hreset := resetSent_lawful h.lawful
  have hwait := settleWait_lawful hreset
  cases hs with
  | illegal => exact h
  | gated hl hled hb hlen => exact gated_inv h hl hled hb hlen
  | unanswered hl =>
    exact inv_of_disabled h hcfg hpend hreset (by simp) (by simp) (by simpa using h.configChecked)
      (by simpa using h.disabled_of_mayAttach hl)
  | misconfigured hl =>
    exact inv_of_disabled h hcfg hpend hwait (by simp) (by simp) (by simpa using h.configChecked)
      (by simpa using h.disabled_of_mayAttach hl)
  | attached hl hvalid =>
    exact inv_of_parts h hcfg hpend hwait (by simp [State.initialised]) (by simp [State.initialised]) (fun _ => hvalid)
      fun he => absurd he Bool.false_ne_true
  | poweredDown hl =>
    exact inv_of_disabled h hcfg hpend (powerDisable_lawful hreset) (by simp) (by simp)
      (fun _ => h.cfgValid_of_mayDetach hl) rfl
  | removed hl he =>
    exact inv_of_disabled h hcfg hpend hreset (by simp) (by simp) (fun _ => h.cfgValid_of_mayDetach hl)
      (by simpa using he)
  | shutDown hl =>
    refine inv_of_parts h hcfg hpend hreset (by simpa using h.ledLength) (by simpa using h.chLength)
      (fun _ => h.configChecked (by simp [hl])) fun he => ⟨.inr rfl, ?_, fun hatt => by cases hatt⟩
    simpa using h.enabledPowered (by simpa using he)

/-- An answer and the words still waiting matter to nothing else in the invariant. -/
theorem inv_respond {s : State} (h : s.Inv) (r : Response) : (s.respond r).Inv := { h with }

theorem inv_setPending {s : State} (h : s.Inv) {ws : List PortWord} (hws : ∀ w ∈ ws, w.isRequest = true) :
    (s.setPending ws).Inv := { h with hostOnly := hws }

/-- Settles O53: the step is idle, or serves the request that the host's word decodes to (`served_inv`). -/
theorem stepKeepsInvariant : Obligations.StepKeepsInvariant := by
  intro s u h hstep
  cases hp : s.pending with
  | nil =>
    rw [step_of_idle hp] at hstep
    obtain rfl := Host.Outcome.next.inj hstep
    exact h
  | cons w rest =>
    cases w with
    | bus w => exact absurd (h.hostOnly (.bus w) (by simp [hp])) Bool.false_ne_true
    | request w =>
      rw [step_of_decoded hp rfl] at hstep
      obtain ⟨t, r, hs, rfl⟩ := request_served (decodeRequest_isRequest w) hstep
      exact inv_respond (served_inv (inv_setPending h fun v hv => h.hostOnly v (by simp [hp, hv])) hs) r

end Sys2Proof.Machine
end

section
/-! PROOFS. What each request word and each bus-transaction word decodes to, and the round trips of the decoder with the
encoder and of the response word (30_encoding.md R53 to R61, R66). -/

namespace Sys2Proof

open Sys2Proof.Machine

/-! ### Request words, by OP (R53, R54, R61) -/

section
variable {w : RequestWord}

theorem decodeRequest_op0 (hop : w.extractLsb' 0 4 = 0#4) :
    decodeRequest w = .reservedOp0 (w.extractLsb' 16 64) (w.extractLsb' 80 64) := by
  simp [decodeRequest, hop]

theorem decodeRequest_op1 (hop : w.extractLsb' 0 4 = 1#4) :
    decodeRequest w =
      .setBrightness (w.extractLsb' 4 4) (w.extractLsb' 8 8) (w.extractLsb' 16 64) (w.extractLsb' 80 64) := by
  simp [decodeRequest, hop]

theorem decodeRequest_op2 (hop : w.extractLsb' 0 4 = 2#4) :
    decodeRequest w = .setBlink (w.extractLsb' 4 4) (w.extractLsb' 16 64) (w.extractLsb' 80 64) := by
  simp [decodeRequest, hop]

theorem decodeRequest_op3 (hop : w.extractLsb' 0 4 = 3#4) :
    decodeRequest w = .attach (w.extractLsb' 16 64) (w.extractLsb' 80 64) := by
  simp [decodeRequest, hop]

theorem decodeRequest_op4 (hop : w.extractLsb' 0 4 = 4#4) :
    decodeRequest w = .detach (w.extractLsb' 16 64) (w.extractLsb' 80 64) := by
  simp [decodeRequest, hop]

theorem decodeRequest_op5 (hop : w.extractLsb' 0 4 = 5#4) :
    decodeRequest w = .shutdown (w.extractLsb' 16 64) (w.extractLsb' 80 64) := by
  simp [decodeRequest, hop]

theorem decodeRequest_op67 {low : BitVec 1} (hop : w.extractLsb' 0 4 = 3#3 ++ low) :
    decodeRequest w = .reservedOp67 low (w.extractLsb' 16 64) (w.extractLsb' 80 64) := by
  obtain rfl | rfl := BitVec.eq_zero_or_eq_one low
  · simp [decodeRequest, hop]
  · simp [decodeRequest, hop]

theorem decodeRequest_op8F {low : BitVec 3} (hop : w.extractLsb' 0 4 = 1#1 ++ low) :
    decodeRequest w = .reservedOp8F low (w.extractLsb' 16 64) (w.extractLsb' 80 64) := by
  have hlow : (w.extractLsb' 0 4).extractLsb' 0 3 = low := by rw [hop]; clear hop; revert low; decide
  have hhigh : 8 ≤ (w.extractLsb' 0 4).toNat := by rw [hop]; clear hop hlow; revert low; decide
  unfold decodeRequest
  dsimp only
  split
  case h_9 => rw [hlow]
  all_goals omega

end

/-- The rows of the opcode table, by OP (R54, R61). -/
theorem op_cases (op : BitVec 4) :
    op = 0#4 ∨ op = 1#4 ∨ op = 2#4 ∨ op = 3#4 ∨ op = 4#4 ∨ op = 5#4 ∨ (∃ low : BitVec 1, op = 3#3 ++ low) ∨
    ∃ low : BitVec 3, op = 1#1 ++ low := by
  revert op
  decide

/-! ### Bus-transaction words (R58, R59) -/

theorem byte_of_toNat {a : Byte} {n : Nat} (h : a.toNat = n) : a = BitVec.ofNat 8 n := by
  rw [← h, BitVec.ofNat_toNat, BitVec.setWidth_eq]

/-- A WRITE that decodes is the encoding of its form. -/
theorem encode_of_decodeWrite {a v : Byte} {i : Instr} (h : decodeWrite a v = .ok i) :
    encode i = .bus (busWord .write a 0xFF#8 v) := by
  unfold decodeWrite at h
  split at h
  case h_1 ha =>
    split at h
    case h_1 hv | h_2 hv | h_3 hv =>
      cases h
      rw [byte_of_toNat ha, byte_of_toNat hv]
      rfl
    case h_4 => cases h
  case h_2 ha | h_3 ha | h_7 ha | h_8 ha | h_9 ha | h_10 ha =>
    cases h
    rw [byte_of_toNat ha]
    rfl
  case h_4 | h_5 | h_6 | h_11 => cases h

/-- The two kinds of transaction that decode: a WRITE with the full mask and an UPDATE of CHANNEL_CTRL. -/
theorem decodeBus_cases {w : BusWord} {i : Instr} (h : decodeBus w = .ok i) :
    (w.extractLsb' 24 2 = BusKind.write.code ∧ w.extractLsb' 8 8 = 0xFF#8 ∧
      decodeWrite (w.extractLsb' 16 8) (w.extractLsb' 0 8) = .ok i) ∨
    (w.extractLsb' 24 2 = BusKind.update.code ∧ w.extractLsb' 16 8 = 0x04#8 ∧
      i = .updCtrl (w.extractLsb' 8 8) (w.extractLsb' 0 8)) := by
  unfold decodeBus at h
  dsimp only at h
  split at h
  case h_1 hkind =>
    split at h
    · rename_i hmask
      exact .inl ⟨BitVec.eq_of_toNat_eq hkind, hmask, h⟩
    · cases h
  case h_2 hkind =>
    split at h
    · rename_i haddr
      cases h
      exact .inr ⟨BitVec.eq_of_toNat_eq hkind, haddr, rfl⟩
    · cases h
  case h_3 => cases h
  case h_4 => cases h

/-- A bus-transaction word is put together from its four fields (R58). -/
theorem eq_busWord {w : BusWord} {kind : BusKind} (hkind : w.extractLsb' 24 2 = kind.code) :
    w = busWord kind (w.extractLsb' 16 8) (w.extractLsb' 8 8) (w.extractLsb' 0 8) := by
  rw [busWord, ← hkind, BitVec.extractLsb'_append_extractLsb'_eq_extractLsb' (show 24 = 16 + 8 from rfl),
    BitVec.extractLsb'_append_extractLsb'_eq_extractLsb' (show 16 = 8 + 8 from rfl),
    BitVec.extractLsb'_append_extractLsb'_eq_extractLsb' (show 8 = 0 + 8 from rfl), BitVec.extractLsb'_eq_self]

/-! ### The decoder and the encoder -/

/-- Settles O2: each request by the equation of its OP and the fields of its word, each bus form by that of its kind. -/
theorem decodeEncodeRoundTrip : Obligations.DecodeEncodeRoundTrip := by
  intro i
  cases i with
  | setBrightness t v on off =>
    obtain ⟨hop, ht, hv, hon, hoff⟩ := requestWord_fields 1#4 t v on off
    rw [encode, decode, decodeRequest_op1 hop, ht, hv, hon, hoff]
  | setBlink t on off =>
    obtain ⟨hop, ht, -, hon, hoff⟩ := requestWord_fields 2#4 t 0#8 on off
    rw [encode, decode, decodeRequest_op2 hop, ht, hon, hoff]
  | attach on off =>
    obtain ⟨hop, -, -, hon, hoff⟩ := requestWord_fields 3#4 0#4 0#8 on off
    rw [encode, decode, decodeRequest_op3 hop, hon, hoff]
  | detach on off =>
    obtain ⟨hop, -, -, hon, hoff⟩ := requestWord_fields 4#4 0#4 0#8 on off
    rw [encode, decode, decodeRequest_op4 hop, hon, hoff]
  | shutdown on off =>
    obtain ⟨hop, -, -, hon, hoff⟩ := requestWord_fields 5#4 0#4 0#8 on off
    rw [encode, decode, decodeRequest_op5 hop, hon, hoff]
  | reservedOp0 on off =>
    obtain ⟨hop, -, -, hon, hoff⟩ := requestWord_fields 0#4 0#4 0#8 on off
    rw [encode, decode, decodeRequest_op0 hop, hon, hoff]
  | reservedOp67 low on off =>
    obtain ⟨hop, -, -, hon, hoff⟩ := requestWord_fields (3#3 ++ low) 0#4 0#8 on off
    rw [encode, decode, decodeRequest_op67 hop, hon, hoff]
  | reservedOp8F low on off =>
    obtain ⟨hop, -, -, hon, hoff⟩ := requestWord_fields (1#1 ++ low) 0#4 0#8 on off
    rw [encode, decode, decodeRequest_op8F hop, hon, hoff]
  | updCtrl m v => exact decodeBus_update m v
  | resetCmd => exact decodeBus_write 0x00#8 0x07#8
  | sleepCmd => exact decodeBus_write 0x00#8 0x08#8
  | wakeCmd => exact decodeBus_write 0x00#8 0x00#8
  | wrPeriod | wrPwm1 | wrIled0 | wrIled1 | wrIled2 | wrIled3 => exact decodeBus_write _ _

/-- Settles O3: the word is put together from the fields that its form fixes. -/
theorem busWordHasOneMeaning : Obligations.BusWordHasOneMeaning := by
  intro w i h
  rcases decodeBus_cases h with ⟨hkind, hmask, hwrite⟩ | ⟨hkind, haddr, rfl⟩
  · rw [encode_of_decodeWrite hwrite, ← hmask, ← eq_busWord hkind]
  · rw [encode, ← haddr, ← eq_busWord hkind]

/-- Settles O6, by the fields of an encoded request (`requestWord_fields`) and the low bits of each word. -/
theorem workedEncodings : Obligations.WorkedEncodings := by
  refine ⟨⟨_, rfl, by decide, ?_⟩, ⟨_, rfl, by decide, ?_⟩, ⟨_, rfl, by decide⟩, by decide⟩
  · obtain ⟨hop, ht, hv, hon, hoff⟩ := requestWord_fields 1#4 0#4 128#8 0#64 0#64
    exact ⟨hon, hoff, hop, ht, hv⟩
  · obtain ⟨-, -, -, hon, hoff⟩ := requestWord_fields 2#4 1#4 0#8 500#64 500#64
    exact ⟨hon, hoff⟩

/-- Settles O7: each word is read by computation. -/
theorem familyWordsDecode : Obligations.FamilyWordsDecode :=
  ⟨rfl, rfl, rfl, rfl, rfl, rfl, rfl, rfl, rfl, rfl, rfl, rfl, rfl⟩

/-! ### The response word (R57) -/

theorem decodeStatus_code (st : Status) : decodeStatus st.code = some st := by
  cases st <;> rfl

theorem responseWord_fields (r : Response) : r.word.extractLsb' 0 3 = r.status.code ∧
    r.word.extractLsb' 3 64 = r.onOut ∧ r.word.extractLsb' 67 64 = r.offOut := by
  unfold Response.word
  refine ⟨?_, ?_, ?_⟩ <;> ext k hk <;>
    simp [BitVec.getElem_extractLsb'] <;> grind

/-- Settles O5, by the fields of the word and the code of each status. -/
theorem responseWordCarriesFields : Obligations.ResponseWordCarriesFields := by
  intro r
  obtain ⟨hst, hon, hoff⟩ := responseWord_fields r
  refine ⟨?_, hst, hon, hoff⟩
  rw [decodeResponse, hst, hon, hoff, decodeStatus_code, Option.map_some]

end Sys2Proof
end

section
/-! PROOFS. When a request is answered ILLEGAL_REQUEST, and which of its fields it ignores (30_encoding.md R53, R56, R61,
R62). -/

namespace Sys2Proof.Machine

open Sys2Proof

/-! ### Requests by legality (R56, R62) -/

/-- Each request in a lifecycle state that the table does not admit (R62). -/
theorem exec_outside_table {i : Instr} {s : State} (hi : i.isRequest = true) (hl : s.lifecycle ∉ legalLifecycles i) :
    exec i s = .next (illegalRequest i.onMs i.offMs s) := by
  cases i with
  | setBrightness | setBlink | shutdown =>
    have hmay : mayUse s.lifecycle = false := by simpa [legalLifecycles, mayUse] using hl
    simp [exec, execSetBrightness, execSetBlink, execShutdown, hmay, Instr.onMs, Instr.offMs]
  | attach =>
    have hmay : mayAttach s.lifecycle = false := by simpa [legalLifecycles, mayAttach] using hl
    simp [exec, execAttach, hmay, Instr.onMs, Instr.offMs]
  | detach =>
    have hmay : mayDetach s.lifecycle = false := by simpa [legalLifecycles, mayDetach] using hl
    simp [exec, execDetach, hmay, Instr.onMs, Instr.offMs]
  | reservedOp0 | reservedOp67 | reservedOp8F => rfl
  | _ => cases hi

theorem targetLed_of_lt {s : State} {t : BitVec 4} (ht : t.toNat < s.config.ledCount) :
    ∃ led, targetLed s t = some led :=
  ⟨_, List.getElem?_eq_getElem ht⟩

theorem targetLed_of_le {s : State} {t : BitVec 4} (ht : s.config.ledCount ≤ t.toNat) : targetLed s t = none :=
  List.getElem?_eq_none ht

theorem execSetBrightness_noTarget {s : State} {t : BitVec 4} (ht : targetLed s t = none) (v : Byte) (on off : Millis) :
    execSetBrightness t v on off s = .next (illegalRequest on off s) := by
  simp [execSetBrightness, ht]

theorem execSetBlink_noTarget {s : State} {t : BitVec 4} (ht : targetLed s t = none) (on off : Millis) :
    execSetBlink t on off s = .next (illegalRequest on off s) := by
  simp [execSetBlink, ht]

theorem execAttach_eq {s : State} (hl : s.lifecycle = .uninit ∨ s.lifecycle = .removed) (on off : Millis) :
    execAttach on off s = .next (((orRaise .bus (busWrite 0x00#8 0x07#8 s)).andThen attachEnumerate).conclude
      0#64 0#64 0#64 0#64) := by
  simp [execAttach, mayAttach, hl]

/-- What DETACH leaves, where it is legal, before it answers (R96). -/
def State.detached (s : State) : State :=
  (if s.resetSent.enabled then (powerDisable s.resetSent).2.setEnabled false else s.resetSent).setLifecycle .removed

theorem execDetach_eq {s : State} (hl : s.lifecycle = .attached ∨ s.lifecycle = .shutdown) (on off : Millis) :
    execDetach on off s = .next (s.detached.respond ⟨.ok, 0#64, 0#64⟩) := by
  simp [execDetach, mayDetach, hl, State.detached, State.resetSent]

theorem execShutdown_eq {s : State} (hl : s.lifecycle = .attached) (on off : Millis) :
    execShutdown on off s = .next ((s.resetSent.setLifecycle .shutdown).respond ⟨.ok, 0#64, 0#64⟩) := by
  simp [execShutdown, mayUse, hl, State.resetSent]

/-- Settles O10: there is no LED to serve, whatever the lifecycle state. -/
theorem illegalTargetAnswered : Obligations.IllegalTargetAnswered := fun _ _ v on off ht =>
  ⟨execSetBrightness_noTarget (targetLed_of_le ht) v on off, execSetBlink_noTarget (targetLed_of_le ht) on off⟩

/-! ### The status of a legal request -/

/-- A raised error has a status of its own (R98). -/
theorem Error.status_ne_illegalRequest (e : Error) : e.status ≠ .illegalRequest := by
  cases e <;> decide

/-- The micro-operation of a legal request ends in OK or an error's status (R99). -/
theorem conclude_legal (m : Micro) (a b c d : Millis) :
    ∃ t r, m.conclude a b c d = State.respond t r ∧ r.status ≠ .illegalRequest := by
  unfold Micro.conclude
  cases m.raised with
  | none => exact ⟨_, _, rfl, by simp⟩
  | some e => exact ⟨_, _, rfl, e.status_ne_illegalRequest⟩

theorem setBlinkBody_legal (t : BitVec 4) (led : Led) (on off : Millis) (s : State) :
    ∃ u r, setBlinkBody t led on off s = State.respond u r ∧ r.status ≠ .illegalRequest := by
  obtain ⟨body, a, b, c, d, -, h⟩ := setBlinkBody_gated t led on off s
  rw [h]
  exact conclude_legal _ a b c d

/-- A request that the table admits, on a target that exists, ends in another status than ILLEGAL_REQUEST. -/
theorem exec_inside_table {i : Instr} {s : State} (hl : s.lifecycle ∈ legalLifecycles i)
    (ht : ∀ t, i.target? = some t → t.toNat < s.config.ledCount) :
    ∃ t r, exec i s = .next (State.respond t r) ∧ r.status ≠ .illegalRequest := by
  cases i with
  | setBrightness t v on off =>
    obtain ⟨led, hled⟩ := targetLed_of_lt (ht t rfl)
    obtain ⟨u, r, hu, hr⟩ := conclude_legal (setBrightnessBody t led v s) 0#64 0#64 0#64 0#64
    exact ⟨u, r, by rw [exec, execSetBrightness_eq (List.mem_singleton.1 hl) t v on off hled, hu], hr⟩
  | setBlink t on off =>
    obtain ⟨led, hled⟩ := targetLed_of_lt (ht t rfl)
    obtain ⟨u, r, hu, hr⟩ := setBlinkBody_legal t led on off s
    exact ⟨u, r, by rw [exec, execSetBlink_eq (List.mem_singleton.1 hl) t on off hled, hu], hr⟩
  | attach on off =>
    obtain ⟨u, r, hu, hr⟩ := conclude_legal ((orRaise .bus (busWrite 0x00#8 0x07#8 s)).andThen attachEnumerate)
      0#64 0#64 0#64 0#64
    exact ⟨u, r, by rw [exec, execAttach_eq (by simpa [legalLifecycles] using hl), hu], hr⟩
  | detach on off =>
    exact ⟨_, _, execDetach_eq (by simpa [legalLifecycles] using hl) on off, by simp⟩
  | shutdown on off =>
    exact ⟨_, _, execShutdown_eq (List.mem_singleton.1 hl) on off, by simp⟩
  | _ => cases hl

/-- The response at the end of a request is the one it appends. -/
theorem request_answers {i : Instr} {s t : State} {r : Response} (hi : i.isRequest = true)
    (h : exec i s = .next (t.respond r)) : s.Answers (t.respond r) r := by
  obtain ⟨t', r', hserved, hu⟩ := request_served hi h
  obtain ⟨-, -, hresp⟩ := served_frame hserved
  have hlast : t.responses ++ [r] = s.responses ++ [r'] := by
    rw [← hresp]
    exact congrArg State.responses hu
  obtain ⟨hinit, -⟩ := List.append_inj' hlast rfl
  rw [State.Answers, State.respond_responses, hinit]

/-- Settles O9, by `exec_outside_table` and `exec_inside_table`. -/
theorem lifecycleDecidesLegality : Obligations.LifecycleDecidesLegality := by
  intro i s hi
  refine ⟨exec_outside_table hi, fun hl ht => ?_⟩
  obtain ⟨t, r, h, hr⟩ := exec_inside_table hl ht
  exact ⟨_, r, h, request_answers hi h, hr⟩

/-! ### Reserved opcodes (R61) -/

/-- Settles O8: the reserved OPs decode to the three reserved rows. -/
theorem reservedOpcodesAnsweredIllegal : Obligations.ReservedOpcodesAnsweredIllegal := by
  refine ⟨fun s w hw => ?_, fun s on off low1 low3 => ⟨rfl, rfl, rfl⟩⟩
  rcases op_cases (w.extractLsb' 0 4) with hop | hop | hop | hop | hop | hop | ⟨low, hop⟩ | ⟨low, hop⟩
  · rw [decodeRequest_op0 hop]
    rfl
  iterate 5
    · rw [hop] at hw
      exact absurd hw (by decide)
  · rw [decodeRequest_op67 hop]
    rfl
  · rw [decodeRequest_op8F hop]
    rfl

/-! ### Ignored fields (R53) -/

/-- Part of a field is that part of the word. -/
theorem extractLsb'_extractLsb' {n : Nat} (w : BitVec n) {i m j k : Nat} (h : j + k ≤ m) :
    (w.extractLsb' i m).extractLsb' j k = w.extractLsb' (i + j) k := by
  ext l hl
  simp [BitVec.getElem_extractLsb', Nat.add_assoc, show j + l < m by omega]

/-- Words with one OP and the same times decode alike if they agree on the fields that the OP does not ignore. -/
theorem decodeRequest_congr {w w' : RequestWord} (hop : w.extractLsb' 0 4 = w'.extractLsb' 0 4)
    (hon : w.extractLsb' 16 64 = w'.extractLsb' 16 64) (hoff : w.extractLsb' 80 64 = w'.extractLsb' 80 64)
    (hbright : w.extractLsb' 0 4 = 1#4 → w.extractLsb' 4 4 = w'.extractLsb' 4 4 ∧
      w.extractLsb' 8 8 = w'.extractLsb' 8 8)
    (hblink : w.extractLsb' 0 4 = 2#4 → w.extractLsb' 4 4 = w'.extractLsb' 4 4) :
    decodeRequest w = decodeRequest w' := by
  rcases op_cases (w.extractLsb' 0 4) with h | h | h | h | h | h | ⟨low, h⟩ | ⟨low, h⟩
  · rw [decodeRequest_op0 h, decodeRequest_op0 (hop ▸ h), hon, hoff]
  · obtain ⟨ht, hv⟩ := hbright h
    rw [decodeRequest_op1 h, decodeRequest_op1 (hop ▸ h), ht, hv, hon, hoff]
  · rw [decodeRequest_op2 h, decodeRequest_op2 (hop ▸ h), hblink h, hon, hoff]
  · rw [decodeRequest_op3 h, decodeRequest_op3 (hop ▸ h), hon, hoff]
  · rw [decodeRequest_op4 h, decodeRequest_op4 (hop ▸ h), hon, hoff]
  · rw [decodeRequest_op5 h, decodeRequest_op5 (hop ▸ h), hon, hoff]
  · rw [decodeRequest_op67 h, decodeRequest_op67 (hop ▸ h), hon, hoff]
  · rw [decodeRequest_op8F h, decodeRequest_op8F (hop ▸ h), hon, hoff]

/-- Settles O4: `decodeRequest_congr` for VALUE and TARGET, the equation of each legal request for the times. -/
theorem ignoredRequestFieldsHaveNoEffect : Obligations.IgnoredRequestFieldsHaveNoEffect := by
  refine ⟨fun w w' hop htimes hbright hblink => ?_, fun s on off on' off' => ⟨fun t v hl ht => ?_, fun hl => ?_,
    fun hl => ?_, fun hl => ?_⟩⟩
  · have hpart {i m : Nat} (h : w.extractLsb' i m = w'.extractLsb' i m) {j k : Nat} (hk : j + k ≤ m) :
        w.extractLsb' (i + j) k = w'.extractLsb' (i + j) k := by
      rw [← extractLsb'_extractLsb' w hk, h, extractLsb'_extractLsb' w' hk]
    exact decodeRequest_congr hop (hpart (j := 0) htimes (by omega)) (hpart (j := 64) htimes (by omega))
      (fun h => ⟨hpart (j := 0) (hbright h) (by omega), hpart (j := 4) (hbright h) (by omega)⟩) hblink
  · obtain ⟨led, hled⟩ := targetLed_of_lt ht
    rw [exec, exec, execSetBrightness_eq hl t v on off hled, execSetBrightness_eq hl t v on' off' hled]
  · rw [exec, exec, execAttach_eq hl, execAttach_eq hl]
  · rw [exec, exec, execDetach_eq hl, execDetach_eq hl]
  · rw [exec, exec, execShutdown_eq hl, execShutdown_eq hl]

end Sys2Proof.Machine
end

section
/-! PROOFS. The power controller inside the requests with a target: the wake and the sleep when every answer is OK, the wake that
fails, the sleep whose failures are swallowed, and the chip that is asleep while `ENABLED` is 1 (40_power_controller.md R68, R69;
42_power_gating.md R79, R80; 70_reset_and_hazards.md R123, R124). -/

namespace Sys2Proof.Machine

open Sys2Proof

/-! ### Every answer OK (R78, R79, R80) -/

theorem Micro.andThen_of_none {m : Micro} (h : m.raised = none) (f : State → Micro) : m.andThen f = f m.state := by
  rw [Micro.andThen, h]

theorem poweredUp_trace {s : State} (w : Bool) (h : s.okFor 2) :
    (s.poweredUp w).trace = s.trace ++ if w then wakeEvents else [] := by
  cases w
  · exact (List.append_nil _).symm
  · exact woken_trace h

theorem poweredUp_psrcOn {s : State} (w : Bool) (h : s.okFor 2) : (s.poweredUp w).psrcOn = (s.psrcOn || w) := by
  cases w
  · exact (Bool.or_false _).symm
  · simp [State.poweredUp, woken_psrcOn h]

/-- The state in which a request ends: after the sleep, where there is one (R69, R79). -/
def State.poweredDown (s : State) (sleep : Bool) : State := if sleep then s.slept else s

section
variable (s : State) (z : Bool)
@[simp] theorem poweredDown_config : (s.poweredDown z).config = s.config := by cases z <;> simp [State.poweredDown]
@[simp] theorem poweredDown_enabled : (s.poweredDown z).enabled = (s.enabled && !z) := by
  cases z <;> simp [State.poweredDown]
@[simp] theorem poweredDown_chBright : (s.poweredDown z).chBright = s.chBright := by
  cases z <;> simp [State.poweredDown]
end

theorem poweredDown_trace {s : State} (z : Bool) (h : s.okFor 2) :
    (s.poweredDown z).trace = s.trace ++ if z then sleepEvents else [] := by
  cases z
  · exact (List.append_nil _).symm
  · exact slept_trace h

theorem poweredDown_psrcOn {s : State} (z : Bool) (h : s.okFor 2) : (s.poweredDown z).psrcOn = (!z && s.psrcOn) := by
  cases z
  · rfl
  · exact slept_psrcOn h

/-- What a power-source disable leaves in each register (R41). -/
theorem powerDisable_reg (s : State) (a : Nat) : (powerDisable s).2.reg a =
    if (s.drawAt 0).result = .ok ∧ s.config.retainOnPowerOff = false then RegVal.noValue else s.reg a := by
  rw [State.reg, powerDisable_image, State.nextDraw_eq, imageAfterPowerOff]
  cases (s.drawAt 0).result <;> cases s.config.retainOnPowerOff <;> simp [State.reg, RegImage.read_empty]

/-- R124: a sleep that does not retain the registers takes every value, whatever the power source was. -/
theorem slept_reg_of_lost {s : State} (h : s.okFor 2) (hret : s.config.retainOnPowerOff = false) (a : Nat) :
    s.slept.reg a = RegVal.noValue := by
  rw [State.slept, reg_setEnabled, powerDisable_reg, if_pos]
  simp [h 1, hret]

/-- A body of GATED on `led` that takes `n` answers and, when they are OK, raises nothing, emits `es` and changes the channel
brightnesses by `store`. -/
structure OkBody (led : Led) (body : State → Micro) (n : Nat) (es : List Event) (store : List Byte → List Byte) : Prop where
  acts : ∀ s, Acts led s (body s).state
  enabled : ∀ s, (body s).state.enabled = s.enabled
  psrcOn : ∀ s, (body s).state.psrcOn = s.psrcOn
  raised : ∀ s : State, s.okFor n → (body s).raised = none
  trace : ∀ s : State, s.okFor n → (body s).state.trace = s.trace ++ es
  chBright : ∀ s : State, s.okFor n → (body s).state.chBright = store s.chBright
  drawAt : ∀ s : State, s.okFor n → ∀ k, (body s).state.drawAt k = s.drawAt (k + n)

/-- The loop when every answer is OK stores the brightness of each pair, in order (R77, R78). -/
theorem writeChannels_ok_chBright : ∀ (ps : List (Nat × Byte)) {s : State}, s.okFor (2 * ps.length) →
    (writeChannels ps s).state.chBright = ps.foldl (fun b x => b.set x.1 x.2) s.chBright
  | [], _, _ => rfl
  | (c, b) :: rest, s, h => by
    rw [List.length_cons] at h
    have hok : s.okFor 2 := State.okFor_mono h (by omega)
    have hrest : (setChannel c b s).state.okFor (2 * rest.length) :=
      State.okFor_shift h (setChannel_ok_drawAt c b hok)
    rw [writeChannels_cons, Micro.andThen_of_none ((setChannel_draws c b s).1.2 hok),
      writeChannels_ok_chBright rest hrest, setChannel_chBright, List.foldl_cons]

theorem ledWrite_okBody (led : Led) (v : Byte) : OkBody led (ledWrite led v) (2 * (ledOutputs v led).length)
    ((ledOutputs v led).flatMap fun x => channelEvents x.1 x.2)
    (fun bs => (ledOutputs v led).foldl (fun b x => b.set x.1 x.2) bs) where
  acts := ledWrite_acts led v
  enabled := writeChannels_enabled _
  psrcOn := writeChannels_psrcOn _
  raised _ h := (writeChannels_ok _ h).1
  trace _ h := (writeChannels_ok _ h).2.1
  chBright _ h := writeChannels_ok_chBright _ h
  drawAt _ h := (writeChannels_ok _ h).2.2

/-- R16: the wake and the sleep leave `ENABLED` as the activity of the new brightnesses. -/
theorem enabled_after_gating (s : State) (bNew : List Byte) :
    ((s.enabled || s.mustWake bNew) && !s.mustSleep bNew) = anyActive s.config.ledCount bNew := by
  unfold State.mustSleep State.mustWake
  cases s.enabled <;> cases anyActive s.config.ledCount bNew <;> simp

section
variable {led : Led} {body : State → Micro} {n : Nat} {es : List Event} {store : List Byte → List Byte}

theorem OkBody.config (hb : OkBody led body n es store) (s : State) : (body s).state.config = s.config :=
  (acts_frame (hb.acts s)).1

/-- GATED when every answer is OK: the body between the wake and the sleep, where there are these (R79). -/
theorem gated_okBody (hb : OkBody led body n es store) {s : State} (bNew : List Byte) (h : s.okFor (n + 4)) :
    gated s.ledBright bNew body (s.setLedBright bNew) =
      done ((body ((s.setLedBright bNew).poweredUp (s.mustWake bNew))).state.poweredDown (s.mustSleep bNew)) := by
  have hsleep : s.mustSleep bNew = (((s.setLedBright bNew).poweredUp (s.mustWake bNew)).enabled &&
      !anyActive s.config.ledCount bNew) := by
    rw [poweredUp_enabled]
    rfl
  rw [hsleep]
  exact gated_ok s.ledBright bNew body (s.setLedBright bNew) n h fun t _ ht =>
    ⟨hb.raised t ht, hb.enabled t, hb.config t, hb.drawAt t ht⟩

/-- What GATED leaves when every answer is OK. -/
theorem gated_allOk (hb : OkBody led body n es store) {s : State} {bNew : List Byte} (h : s.okFor (n + 4)) :
    ∃ u, gated s.ledBright bNew body (s.setLedBright bNew) = done u ∧
      u.trace = s.trace ++ (if s.mustWake bNew then wakeEvents else []) ++ es ++
        (if s.mustSleep bNew then sleepEvents else []) ∧
      u.responses = s.responses ∧ u.ledBright = bNew ∧ u.chBright = store s.chBright ∧ u.enabled = u.active ∧
      u.psrcOn = (!s.mustSleep bNew && (s.psrcOn || s.mustWake bNew)) ∧
      (s.mustSleep bNew = true → s.config.retainOnPowerOff = false → ∀ a, u.reg a = RegVal.noValue) ∧
      u.lifecycle = s.lifecycle ∧ u.config = s.config ∧ u.pending = s.pending := by
  have hrun := gated_okBody hb bNew h
  have hacts : Acts led (s.setLedBright bNew) (gated s.ledBright bNew body (s.setLedBright bNew)).state :=
    gated_acts hb.acts
  rw [hrun, done_state] at hacts
  obtain ⟨hcfg, hlc, hlb, hresp, hpend, _⟩ := acts_frame hacts
  have hstart : (s.setLedBright bNew).okFor 2 := State.okFor_mono h (by omega)
  have hup : ((s.setLedBright bNew).poweredUp (s.mustWake bNew)).okFor (n + 2) := fun k hk => by
    rw [poweredUp_drawAt]
    exact h _ (by split <;> omega)
  have hupn := State.okFor_mono hup (Nat.le_add_right n 2)
  have hend : (body ((s.setLedBright bNew).poweredUp (s.mustWake bNew))).state.okFor 2 := fun k hk => by
    rw [hb.drawAt _ hupn]
    exact hup _ (by omega)
  refine ⟨_, hrun, ?_, hresp, hlb, ?_, ?_, ?_, fun hsleep hret a => ?_, hlc, hcfg, hpend⟩
  · rw [poweredDown_trace _ hend, hb.trace _ hupn, poweredUp_trace _ hstart]
    rfl
  · rw [poweredDown_chBright, hb.chBright _ hupn, poweredUp_chBright]
    rfl
  · rw [State.active, hcfg, hlb, poweredDown_enabled, hb.enabled, poweredUp_enabled]
    exact enabled_after_gating s bNew
  · rw [poweredDown_psrcOn _ hend, hb.psrcOn, poweredUp_psrcOn _ hstart]
    rfl
  · rw [hsleep]
    exact slept_reg_of_lost hend (by rwa [hb.config, poweredUp_config]) a

end

/-- Settles O19: LED_WRITE between the wake and the sleep (`gated_allOk`). -/
theorem setBrightnessAllOk : Obligations.SetBrightnessAllOk := by
  intro s t v on off led hl hled h
  obtain ⟨u, hrun, htrace, hresp, hframe⟩ :=
    gated_allOk (ledWrite_okBody led v) (bNew := s.ledBright.set t.toNat v) h
  have hexec : exec (.setBrightness t v on off) s = _ := execSetBrightness_eq hl t v on off hled
  rw [setBrightnessBody, hrun, conclude_done] at hexec
  exact ⟨_, hexec, htrace, congrArg (· ++ [_]) hresp, hframe⟩

/-! ### A sleep whose failures are swallowed (R69, R101) -/

/-- ENSURE_DISABLED on an enabled chip, whatever is answered (R69). -/
theorem ensureDisabled_of_enabled {s : State} (he : s.enabled = true) :
    (ensureDisabled s).trace = s.trace ++ [.bus .write 0x00#8 0xFF#8 0x08#8 (s.drawAt 0).result,
      .pwr .disable (s.drawAt 1).result] ∧
    (ensureDisabled s).enabled = ((s.drawAt 1).result == .err) := by
  rcases ensureDisabled_cases s with ⟨hoff, _⟩ | ⟨_, hr, h⟩ | ⟨_, hr, h⟩
  · rw [he] at hoff
    cases hoff
  · simp [h, hr, State.nextDraw_eq]
  · simp [h, hr, he, State.nextDraw_eq]

theorem anyActive_eq_false {n : Nat} {bs : List Byte} (h : ∀ b ∈ bs, b = 0#8) : anyActive n bs = false := by
  rw [anyActive, List.any_eq_false]
  intro b hb
  simp [h b (List.mem_of_mem_take hb)]

/-- No LED is active once the only one that was is set to 0 (R67). -/
theorem anyActive_set_zero {n i : Nat} {bs : List Byte} (h : ∀ l b, l ≠ i → bs[l]? = some b → b = 0#8) :
    anyActive n (bs.set i 0#8) = false := by
  refine anyActive_eq_false fun b hb => ?_
  obtain ⟨l, hl⟩ := List.getElem?_of_mem hb
  by_cases hli : l = i
  · subst hli
    obtain ⟨_, hb⟩ : (∃ x, bs[l]? = some x) ∧ 0#8 = b := by simpa [List.getElem?_set_self'] using hl
    exact hb.symm
  · exact h l b hli (by rwa [List.getElem?_set_ne (Ne.symm hli)] at hl)

/-- Settles O24: the body raises nothing, and ENSURE_DISABLED, which follows it, never raises. -/
theorem powerDownFailuresSwallowed : Obligations.PowerDownFailuresSwallowed := by
  intro s t on off led hl he hled hzero h
  have hlen : (ledMembers led).length = (ledOutputs 0#8 led).length := by
    rw [← ledOutputs_fst 0#8, List.length_map]
  rw [hlen] at h ⊢
  have hb := ledWrite_okBody led 0#8
  have hstart : (s.setLedBright (s.ledBright.set t.toNat 0#8)).okFor (2 * (ledOutputs 0#8 led).length) := h
  have hon : (s.setLedBright (s.ledBright.set t.toNat 0#8)).enabled = true := he
  have hidle : anyActive s.config.ledCount (s.ledBright.set t.toNat 0#8) = false := anyActive_set_zero hzero
  have hexec : exec (.setBrightness t 0#8 on off) s = _ := execSetBrightness_eq hl t 0#8 on off hled
  rw [setBrightnessBody, gated_enabled hon, Micro.andThen_of_none (hb.raised _ hstart),
    State.setLedBright_config, hidle, if_neg Bool.false_ne_true, conclude_done] at hexec
  obtain ⟨hevents, hen⟩ := ensureDisabled_of_enabled ((hb.enabled _).trans hon)
  simp only [hb.drawAt _ hstart, drawAt_setLedBright, Nat.zero_add, Nat.add_comm 1] at hevents hen
  refine ⟨_, hexec, ?_, ?_, hen⟩
  · simp [ledWrite]
  · rw [State.respond_trace, hevents, hb.trace _ hstart]
    rfl

/-! ### A wake that fails (R68) -/

/-- A request on a legal target is a gated body that answers with `errorTimes` when something is raised (R57, R92, R99). -/
theorem exec_target_eq {i : Instr} {t : BitVec 4} {led : Led} {s : State} (ht : i.target? = some t)
    (hl : s.lifecycle = .attached) (hled : targetLed s t = some led) :
    ∃ body a b, LedBody led body ∧
      exec i s = .next ((gatedRequest i body s).conclude a b i.errorTimes.1 i.errorTimes.2) := by
  cases i with
  | setBrightness t' v on off =>
    obtain rfl : t' = t := Option.some.inj ht
    exact ⟨_, _, _, .brightness v, execSetBrightness_eq hl t' v on off hled⟩
  | setBlink t' on off =>
    obtain rfl : t' = t := Option.some.inj ht
    have hexec : exec (.setBlink t' on off) s = _ := execSetBlink_eq hl t' on off hled
    simp only [gatedRequest, Instr.newBright, hexec]
    rcases setBlinkBody_cases t' led on off s with ⟨hon, hoff, h⟩ | ⟨hon, hoff, h⟩ | ⟨hon, hoff, h⟩ | ⟨hon, hoff, h⟩ <;>
      rw [h]
    · exact ⟨_, _, _, .alwaysOn, by rw [if_neg fun hc => hon hc.1]; rfl⟩
    · exact ⟨_, _, _, .brightness 0#8, by rw [if_pos ⟨hon, hoff⟩]; rfl⟩
    · exact ⟨_, _, _, .blink on off s, by rw [if_neg fun hc => hon hc.1]; rfl⟩
    · exact ⟨_, _, _, .blink 500#64 500#64 s, by rw [if_neg fun hc => hc.2 hoff]; rfl⟩
  | _ => cases ht

theorem mustWake_iff (s : State) (bNew : List Byte) : s.mustWake bNew = true ↔ s.enabled = false ∧
    (anyActive s.config.ledCount bNew || anyActive s.config.ledCount s.ledBright) = true := by
  simp [State.mustWake]

/-- What ENSURE_ENABLED raises ends the request before its body (R79, R99). -/
theorem gatedRequest_of_wake_raised {i : Instr} {body : State → Micro} {s u : State} {e : Error}
    (hw : s.mustWake (i.newBright s.ledBright) = true)
    (h : ensureEnabled (s.setLedBright (i.newBright s.ledBright)) = raise e u) : gatedRequest i body s = raise e u := by
  obtain ⟨_, hact⟩ := (mustWake_iff _ _).1 hw
  simp only [gatedRequest, gated, State.setLedBright_config, hact, if_true, h, raise_andThen]

/-- What a wake that failed leaves: the compensating disable was issued (R68). -/
def State.wakeUndone (s : State) : State := (powerDisable (busWrite 0x00#8 0x00#8 (powerEnable s).2).2).2

section
variable (s : State)
@[simp] theorem wakeUndone_config : s.wakeUndone.config = s.config := by simp [State.wakeUndone]
@[simp] theorem wakeUndone_lifecycle : s.wakeUndone.lifecycle = s.lifecycle := by simp [State.wakeUndone]
@[simp] theorem wakeUndone_enabled : s.wakeUndone.enabled = s.enabled := by simp [State.wakeUndone]
@[simp] theorem wakeUndone_ledBright : s.wakeUndone.ledBright = s.ledBright := by simp [State.wakeUndone]
@[simp] theorem wakeUndone_chBright : s.wakeUndone.chBright = s.chBright := by simp [State.wakeUndone]
@[simp] theorem wakeUndone_responses : s.wakeUndone.responses = s.responses := by simp [State.wakeUndone]
@[simp] theorem wakeUndone_pending : s.wakeUndone.pending = s.pending := by simp [State.wakeUndone]
end

section
variable {s : State}

/-- ENSURE_ENABLED on a disabled chip when the power source refuses (R68). -/
theorem ensureEnabled_refused (he : s.enabled = false) (h0 : (s.drawAt 0).result = .err) :
    ensureEnabled s = raise .power (powerEnable s).2 := by
  simpa [he, h0] using ensureEnabled_cases s

/-- ENSURE_ENABLED on a disabled chip when the wake command fails (R68). -/
theorem ensureEnabled_wakeFailed (he : s.enabled = false) (h0 : (s.drawAt 0).result = .ok)
    (h1 : (s.drawAt 1).result = .err) : ensureEnabled s = raise .bus s.wakeUndone := by
  simpa [he, h0, h1, State.wakeUndone] using ensureEnabled_cases s

theorem wakeUndone_trace (h0 : (s.drawAt 0).result = .ok) (h1 : (s.drawAt 1).result = .err) :
    s.wakeUndone.trace = s.trace ++ [.pwr .enable .ok, .bus .write 0x00#8 0xFF#8 0x00#8 .err,
      .pwr .disable (s.drawAt 2).result] := by
  simp [State.wakeUndone, State.nextDraw_eq, h0, h1]

theorem wakeUndone_psrcOn (h0 : (s.drawAt 0).result = .ok) :
    s.wakeUndone.psrcOn = ((s.drawAt 2).result == .err) := by
  cases h2 : (s.drawAt 2).result <;> simp [State.wakeUndone, State.nextDraw_eq, h0, h2]

/-- A wake answered ERR takes effect when that is drawn (R37, D20). -/
theorem failedWake_applies (h1 : (s.drawAt 1).result = .err) : (powerEnable s).2.applies = (s.drawAt 1).applied := by
  simp [applies_eq_landsAt, State.landsAt, h1]

theorem wakeUndone_chipMode (h0 : (s.drawAt 0).result = .ok) (h1 : (s.drawAt 1).result = .err) :
    s.wakeUndone.chipMode = if (s.drawAt 2).result = .ok then .unset else if (s.drawAt 1).applied then .awake
      else if s.psrcOn then s.chipMode else .unset := by
  simp only [State.wakeUndone, powerDisable_chipMode, busWrite_chipMode, failedWake_applies h1,
    powerEnable_chipMode, State.nextDraw_eq, busWrite_drawAt, powerEnable_drawAt, h0]
  cases s.psrcOn <;> rfl

/-- The registers after a failed wake: RESET_CTRL by its effect, and no value after a disable that does not retain them (R37,
R41). -/
theorem wakeUndone_reg (hwf : s.image.wf = true) (h1 : (s.drawAt 1).result = .err) (a : Nat) :
    s.wakeUndone.reg a = if (s.drawAt 2).result = .ok ∧ s.config.retainOnPowerOff = false then RegVal.noValue
      else if (s.drawAt 1).applied ∧ a = 0 then RegVal.full 0x00#8 else s.reg a := by
  have hreg : (0x00#8 : Byte).toNat < regCount (powerEnable s).2.config :=
    Nat.lt_of_lt_of_le (by decide) (six_le_regCount _)
  rw [State.wakeUndone, powerDisable_reg, busWrite_reg_of_ne_reset (by simpa using hwf) (by decide) hreg,
    failedWake_applies h1]
  simp

end

/-- Settles O22: on every path the request is a gated body (`exec_target_eq`), which the failed wake keeps from running. -/
theorem powerUpFailureEndsRequest : Obligations.PowerUpFailureEndsRequest := by
  intro s i t led ht hl hwf hled hw
  obtain ⟨body, a, b, _, hexec⟩ := exec_target_eq ht hl hled
  obtain ⟨hoff, _⟩ := (mustWake_iff _ _).1 hw
  refine ⟨fun h0 => ?_, fun h0 h1 => ?_⟩
  · rw [gatedRequest_of_wake_raised hw (ensureEnabled_refused (s := s.setLedBright _) hoff h0), conclude_raise] at hexec
    exact ⟨_, hexec, by simp [State.nextDraw_eq, h0, hoff, Error.status]⟩
  · rw [gatedRequest_of_wake_raised hw (ensureEnabled_wakeFailed (s := s.setLedBright _) hoff h0 h1),
      conclude_raise] at hexec
    have hreg := wakeUndone_reg (s := s.setLedBright (i.newBright s.ledBright)) hwf h1
    refine ⟨_, hexec, wakeUndone_trace h0 h1, by simp [Error.status], wakeUndone_psrcOn h0, by simp [hoff],
      fun h2 hret r => (hreg r).trans (if_pos ⟨h2, hret⟩), fun hkeep => ?_, wakeUndone_chipMode h0 h1, by simp⟩
    have hkept : ¬((s.drawAt 2).result = .ok ∧ s.config.retainOnPowerOff = false) := by
      rcases hkeep with h2 | hret
      · simp [h2]
      · simp [hret]
    exact ⟨(hreg 0).trans ((if_neg hkept).trans (by simp)),
      fun r hr => (hreg r).trans ((if_neg hkept).trans (by simp [hr]))⟩

/-! ### Asleep while `ENABLED` is 1 (R123) -/

theorem channelOutput_of_asleep {s : State} (h : s.chipMode = .asleep) {c : Nat} (hc : c < s.config.channelCount) :
    s.channelOutput c = .off := by
  rw [State.channelOutput, if_pos hc, State.presentOutput, State.chipPower, h]
  cases s.psrcOn <;> rfl

/-- No body of a request touches `ENABLED` or the chip's mode. -/
theorem LedBody.keeps_power {led : Led} {body : State → Micro} (hb : LedBody led body)
    (hled : ∀ c ∈ ledMembers led, c < 4) (s : State) :
    (body s).state.enabled = s.enabled ∧ (body s).state.chipMode = s.chipMode := by
  cases hb with
  | brightness v =>
    refine ⟨writeChannels_enabled _ s, writeChannels_chipMode _ s fun x hx => ?_⟩
    have hmem : x.1 ∈ ledMembers led := by
      rw [← ledOutputs_fst v]
      exact List.mem_map_of_mem hx
    exact Nat.lt_trans (hled _ hmem) (by decide)
  | alwaysOn => simp
  | blink on off s' => exact ⟨blinkWrites_enabled _ _ s, blinkWrites_chipMode _ _ s⟩

/-- GATED is its body alone where the chip is enabled and some LED stays active (R68, R79). -/
theorem gated_of_enabled_active {s : State} {bNew : List Byte} (he : s.enabled = true)
    (hact : anyActive s.config.ledCount bNew = true) (bOld : List Byte) (body : State → Micro) :
    gated bOld bNew body s = body s := by
  rw [gated_enabled he]
  simp only [hact, if_true]
  rcases Micro.andThen_cases (body s) done with ⟨hnone, h⟩ | ⟨_, _, h⟩
  · exact h.trans (congrArg (Micro.mk (body s).state) hnone.symm)
  · exact h

/-- A request that leaves an enabled chip some active LED keeps `ENABLED` and the chip's mode, whatever is answered. -/
theorem exec_enabled_active {i : Instr} {t : BitVec 4} {s u : State} (ht : i.target? = some t)
    (hcfg : cfgValid s.config = true) (he : s.enabled = true) (h : exec i s = .next u) (hact : u.active = true) :
    u.enabled = true ∧ u.chipMode = s.chipMode ∧ u.config = s.config := by
  rcases targetRequest_cases ht h with rfl | ⟨led, _, _, _, _, _, hl, hled, _, _⟩
  · exact ⟨he, rfl, rfl⟩
  · obtain ⟨body, a, b, hb, hexec⟩ := exec_target_eq ht hl hled
    obtain rfl := Host.Outcome.next.inj (hexec.symm.trans h)
    obtain ⟨r, hr⟩ := (gatedRequest i body s).conclude_eq a b i.errorTimes.1 i.errorTimes.2
    rw [hr] at hact ⊢
    obtain ⟨hcfg', _, hlb, _⟩ := acts_frame (gated_acts (s := s.setLedBright (i.newBright s.ledBright))
      (bOld := s.ledBright) (bNew := i.newBright s.ledBright) hb.acts)
    have hnew : anyActive s.config.ledCount (i.newBright s.ledBright) = true := by
      rw [State.active, State.respond_config, State.respond_ledBright, gatedRequest, hcfg', hlb] at hact
      exact hact
    obtain ⟨hen, hmode⟩ := hb.keeps_power (fun c hc => ((cfgValid_led hcfg (targetLed_mem hled)).2.1 c hc).1)
      (s.setLedBright (i.newBright s.ledBright))
    have hbody : gatedRequest i body s = body (s.setLedBright (i.newBright s.ledBright)) :=
      gated_of_enabled_active (s := s.setLedBright (i.newBright s.ledBright)) he hnew _ _
    rw [State.respond_enabled, State.respond_chipMode, State.respond_config, hbody]
    exact ⟨hen.trans he, hmode, hbody ▸ hcfg'⟩

/-- Settles O49: `exec_enabled_active` keeps the chip asleep, and a sleeping chip is dark. -/
theorem enabledButAsleepStaysDark : Obligations.EnabledButAsleepStaysDark := by
  refine ⟨fun s u i ht hcfg he hmode h hact => ?_, fun s he hp h0 h1 => ?_⟩
  · obtain ⟨t, ht⟩ := Option.ne_none_iff_exists'.1 ht
    obtain ⟨hen, hkept, hcfg'⟩ := exec_enabled_active ht hcfg he h hact
    have hasleep : u.chipMode = .asleep := hkept.trans hmode
    exact ⟨hen, hasleep, fun c hc => channelOutput_of_asleep hasleep (hcfg' ▸ hc)⟩
  · rcases ensureDisabled_cases s with ⟨hoff, _⟩ | ⟨_, hok, _⟩ | ⟨_, _, h⟩
    · rw [he] at hoff
      cases hoff
    · rw [h1] at hok
      cases hok
    · have happ : s.applies = true := State.applies_of_ok hp (by rwa [State.nextDraw_eq])
      simp [h, he, hp, happ, State.chipPower, State.nextDraw_eq, h1, modeAfterWrite]

end Sys2Proof.Machine
end

section
/-! PROOFS. The channel driver: the brightness map and the group scaling (41_channel_driver.md R71 to R73), the control fields
of sibling channels (R75), and what a request leaves of every channel that is no member of its target (20_memory.md R34). -/

namespace Sys2Proof.Machine

open Sys2Proof

/-! ### The brightness map and the group scaling (R71 to R73) -/

theorem iledCode_of_pos {b : Byte} (h : 1 ≤ b.toNat) : (iledCode b).toNat = b.toNat - 1 := by
  have hb : b ≠ 0#8 := by bv_omega
  rw [iledCode, if_neg hb]
  bv_omega

theorem modeFor_of_pos {b : Byte} (h : 1 ≤ b.toNat) : modeFor b = 1#2 := if_neg (by bv_omega)

/-- Settles O17: `iledCode` and `modeFor` at 0 and above it. -/
theorem brightnessCodeAndMode : Obligations.BrightnessCodeAndMode :=
  ⟨rfl, rfl, fun _ h => ⟨iledCode_of_pos h, modeFor_of_pos h⟩, iledCode_le⟩

/-- No product of a brightness and an 8-bit weight scales beyond a byte, so the cut to 8 bits loses nothing (R73). -/
theorem scaledOutput_toNat (ov : Byte) {w : Nat} (hw : w ≤ 255) : (scaledOutput ov w).toNat = ov.toNat * w / 255 := by
  have hprod : ov.toNat * w ≤ 255 * 255 := Nat.mul_le_mul (by omega) hw
  rw [scaledOutput, BitVec.toNat_ofNat]
  omega

/-- Settles O18: the end points are instances of the formula (`scaledOutput_toNat`). -/
theorem groupScalingExact : Obligations.GroupScalingExact := by
  intro ov w hw
  have hscale := scaledOutput_toNat ov hw
  refine ⟨hscale, ?_, ?_, ?_, ?_, fun hlt => ?_⟩
  · apply BitVec.eq_of_toNat_eq
    rw [scaledOutput_toNat ov (Nat.le_refl 255), Nat.mul_div_cancel _ (by decide)]
  · rw [scaledOutput_toNat 255#8 hw]
    exact Nat.mul_div_cancel_left w (by decide)
  · simp [scaledOutput]
  · simp [scaledOutput]
  · apply BitVec.eq_of_toNat_eq
    rw [hscale, Nat.div_eq_of_lt hlt]
    rfl

/-! ### Sibling fields (R75) -/

/-- Settles O15: the masks of other channels have no bit of field `d`. -/
theorem siblingFieldsUnchanged : Obligations.SiblingFieldsUnchanged := by
  intro s d f hwf hd
  refine ⟨fun c hc hne _ => ?_, fun cs hcs hmem _ => ?_⟩
  · rw [ctrlSet_state]
    exact busUpdate_field _ _ _ s hwf d hd (mask_other c d hc hd hne)
  · rw [groupCtrl_state]
    exact busUpdate_field _ _ _ s hwf d hd (groupMask_other cs d hcs hd hmem)

/-! ### Channels that are no member (R34, R75, R78) -/

/-- From `s` to `u` the control field of every channel that is no member of `led` is as before, and so is every register but
the commands and blink timing below 3, CHANNEL_CTRL and the members' current registers. -/
structure Untouched (led : Led) (s u : State) : Prop where
  field : ∀ d, d < 4 → d ∉ ledMembers led → u.ctrlField d = s.ctrlField d
  reg : ∀ a, 3 ≤ a → a ≠ 4 → (∀ c ∈ ledMembers led, a ≠ 6 + c) → u.reg a = s.reg a

section
variable {led : Led} {s t u : State}

theorem Untouched.trans (h : Untouched led s t) (h' : Untouched led t u) : Untouched led s u where
  field d hd hmem := (h'.field d hd hmem).trans (h.field d hd hmem)
  reg a h3 h4 hmem := (h'.reg a h3 h4 hmem).trans (h.reg a h3 h4 hmem)

theorem untouched_of_image_eq (h : u.image = s.image) : Untouched led s u :=
  have hreg : ∀ a, u.reg a = s.reg a := fun a => by rw [State.reg, State.reg, h]
  ⟨fun d _ _ => ctrlField_of_reg_eq (hreg 4) d, fun a _ _ _ => hreg a⟩

theorem busWrite_untouched {a v : Byte} (hwf : s.image.wf = true) (hv : ¬(a = 0x00#8 ∧ v = 0x07#8))
    (hcount : a.toNat < regCount s.config) (ha : a.toNat < 3 ∨ ∃ c ∈ ledMembers led, a.toNat = 6 + c) :
    Untouched led s (busWrite a v s).2 := by
  have hreg : ∀ b, 3 ≤ b → (∀ c ∈ ledMembers led, b ≠ 6 + c) → (busWrite a v s).2.reg b = s.reg b := fun b h3 hmem => by
    rw [busWrite_reg_of_ne_reset hwf hv hcount, if_neg]
    rintro ⟨_, rfl⟩
    rcases ha with hlow | ⟨c, hc, hca⟩
    · omega
    · exact hmem c hc hca
  exact ⟨fun d _ _ => ctrlField_of_reg_eq (hreg 4 (by omega) (by omega)) d, fun b h3 _ => hreg b h3⟩

theorem busUpdate_untouched {m v : Byte} (hwf : s.image.wf = true)
    (hm : ∀ d, d < 4 → d ∉ ledMembers led → m.extractLsb' (2 * d) 2 = 0#2) :
    Untouched led s (busUpdate 0x04#8 m v s).2 where
  field d hd hmem := busUpdate_field _ _ _ s hwf d hd (hm d hd hmem)
  reg a _ h4 _ := by rw [busUpdate_reg _ _ _ hwf, if_neg fun h => h4 h.2.2]

/-- A power-off that is refused takes nothing; one that is granted is the event that says so (R41). -/
theorem powerDisable_untouched (led : Led) (s : State) :
    Untouched led s (powerDisable s).2 ∨ (powerDisable s).2.trace = s.trace ++ [.pwr .disable .ok] := by
  cases hr : s.nextDraw.result with
  | ok => exact .inr (by rw [powerDisable_trace, hr])
  | err => exact .inl (untouched_of_image_eq (by rw [powerDisable_image, hr, if_neg (by decide)]))

theorem act_wf (hact : Act led s u) (hwf : s.image.wf = true) : u.image.wf = true := by
  cases hact with
  | wake | sleep | period | duty | iled => exact busWrite_wf _ _ hwf
  | field | fields => exact busUpdate_wf _ _ _ hwf
  | enable => rwa [powerEnable_image]
  | disable => exact powerDisable_wf hwf
  | flag | bright => exact hwf

/-- One action of a request on `led` leaves the other channels alone, or it switches the power source off. -/
theorem act_untouched (hact : Act led s u) (hwf : s.image.wf = true)
    (hled : ∀ c ∈ ledMembers led, c < 4 ∧ 6 + c < regCount s.config) :
    Untouched led s u ∨ u.trace = s.trace ++ [.pwr .disable .ok] := by
  have h6 := six_le_regCount s.config
  have hlow : ∀ {a v : Byte}, a.toNat < 3 → ¬(a = 0x00#8 ∧ v = 0x07#8) → Untouched led s (busWrite a v s).2 :=
    fun ha hv => busWrite_untouched hwf hv (by omega) (.inl ha)
  cases hact with
  | wake => exact .inl (hlow (by decide) (by decide))
  | sleep => exact .inl (hlow (by decide) (by decide))
  | period n => exact .inl (hlow (by decide) fun h => absurd h.1 (by decide))
  | duty code => exact .inl (hlow (by decide) fun h => absurd h.1 (by decide))
  | iled c b _ hc =>
    obtain ⟨hc4, hcount⟩ := hled c hc
    have haddr := iledAddr_toNat hc4
    have hne : iledAddr c ≠ 0x00#8 := by bv_omega
    exact .inl (busWrite_untouched hwf (fun h => hne h.1) (haddr ▸ hcount) (.inr ⟨c, hc, haddr⟩))
  | field c f _ hc =>
    exact .inl (busUpdate_untouched hwf fun d hd hmem => mask_other c d (hled c hc).1 hd fun h => hmem (h ▸ hc))
  | fields f =>
    exact .inl (busUpdate_untouched hwf fun d hd hmem => groupMask_other _ d (fun c hc => (hled c hc).1) hd hmem)
  | enable => exact .inl (untouched_of_image_eq (powerEnable_image s))
  | disable => exact powerDisable_untouched led s
  | flag | bright => exact .inl (untouched_of_image_eq rfl)

/-- Some event between `s` and `u` switched the power source off. -/
def SwitchedOff (s u : State) : Prop := ∃ e ∈ s.newEvents u, e.powerOff = true

theorem SwitchedOff.mono (hst : s.trace <+: t.trace) (htu : t.trace <+: u.trace) (h : SwitchedOff s t) :
    SwitchedOff s u := by
  obtain ⟨e, he, hoff⟩ := h
  refine ⟨e, ?_, hoff⟩
  obtain ⟨es, hes⟩ := hst
  obtain ⟨es', hes'⟩ := htu
  simp only [State.newEvents, ← hes', ← hes, List.drop_left, List.append_assoc] at he ⊢
  exact List.mem_append_left es' he

/-- So does a run of such actions, in which the power source may have been switched off at any point. -/
theorem acts_untouched (hacts : Acts led s u) (hwf : s.image.wf = true)
    (hled : ∀ c ∈ ledMembers led, c < 4 ∧ 6 + c < regCount s.config) :
    u.image.wf = true ∧ (Untouched led s u ∨ SwitchedOff s u) := by
  induction hacts with
  | refl => exact ⟨hwf, .inl (untouched_of_image_eq rfl)⟩
  | step hrun hact ih =>
    obtain ⟨hwf', hprev⟩ := ih
    have hpre := acts_trace_prefix hrun
    refine ⟨act_wf hact hwf', ?_⟩
    rcases hprev with hprev | hoff
    · rcases act_untouched hact hwf' (by rwa [(acts_frame hrun).1]) with h | htrace
      · exact .inl (hprev.trans h)
      · exact .inr ⟨.pwr .disable .ok, mem_newEvents_of_append hpre htrace (List.mem_singleton_self _), rfl⟩
    · exact .inr (hoff.mono hpre (acts_trace_prefix (.one hact)))

end

/-- A request on the LED `led` of a checked configuration leaves the other channels alone, or it switches the power source off. -/
theorem exec_untouched {i : Instr} {s u : State} {t : BitVec 4} {led : Led} (ht : i.target? = some t)
    (hled : targetLed s t = some led) (hcfg : cfgValid s.config = true) (hwf : s.image.wf = true)
    (h : exec i s = .next u) : Untouched led s u ∨ SwitchedOff s u := by
  rcases targetRequest_cases ht h with rfl | ⟨led', body, a, b, c, d, _, hled', hb, rfl⟩
  · exact .inl (untouched_of_image_eq rfl)
  · obtain rfl : led = led' := Option.some.inj (hled.symm.trans hled')
    have hmem := (cfgValid_led hcfg (targetLed_mem hled)).2.1
    obtain ⟨r, hr⟩ := (gatedRequest i body s).conclude_eq a b c d
    obtain ⟨_, hout⟩ := acts_untouched (gatedRequest_acts hb s) hwf fun c hc => ⟨(hmem c hc).1, (hmem c hc).2.1⟩
    rw [hr]
    exact hout.imp (fun h => ⟨h.field, h.reg⟩) id

/-- Settles O57, by `exec_untouched`: a channel of the chip that is no member has its own current register. -/
theorem otherChannelsUntouched : Obligations.OtherChannelsUntouched := by
  intro i s u t led ht hled _ hcfg hwf h hpow
  obtain ⟨_, _, hn, _⟩ := cfgValid_led hcfg (targetLed_mem hled)
  have hkept : Untouched led s u := (exec_untouched ht hled hcfg hwf h).resolve_right fun ⟨e, he, hoff⟩ => by
    rw [hpow e he] at hoff
    cases hoff
  refine ⟨fun d hd hmem => ⟨hkept.field d (by omega) hmem, hkept.reg (6 + d) (by omega) (by omega) ?_⟩,
    hkept.reg 3 (by omega) (by omega) (by omega), hkept.reg 5 (by omega) (by omega) (by omega)⟩
  intro c hc heq
  obtain rfl : d = c := Nat.add_left_cancel heq
  exact hmem hc

end Sys2Proof.Machine
end

section
/-! PROOFS. The registers after SET_BRIGHTNESS on a powered chip (41_channel_driver.md R77, R78; 20_memory.md R37, R41): every
answer OK, the first ERR in the body (60_exceptions.md R99, R100), and the blink that a brightness request stops
(70_reset_and_hazards.md R122). -/

namespace Sys2Proof.Machine

open Sys2Proof

/-! ### The body of SET_BRIGHTNESS -/

/-- The state in which the body of a request that leaves the brightnesses `bNew` starts (R79, R80). -/
def State.bodyStart (s : State) (bNew : List Byte) : State := (s.setLedBright bNew).poweredUp (s.mustWake bNew)

/-- The state that LED_WRITE then leaves, before the power-down, where there is one (R78). -/
def State.bodyEnd (s : State) (led : Led) (v : Byte) (bNew : List Byte) : State :=
  (ledWrite led v (s.bodyStart bNew)).state

section
variable (s : State) (led : Led) (v : Byte) (bNew : List Byte)
@[simp] theorem bodyStart_config : (s.bodyStart bNew).config = s.config := by simp [State.bodyStart]
@[simp] theorem bodyStart_lifecycle : (s.bodyStart bNew).lifecycle = s.lifecycle := by simp [State.bodyStart]
@[simp] theorem bodyStart_enabled : (s.bodyStart bNew).enabled = (s.enabled || s.mustWake bNew) := by
  simp [State.bodyStart]
@[simp] theorem bodyStart_ledBright : (s.bodyStart bNew).ledBright = bNew := by simp [State.bodyStart]
@[simp] theorem bodyStart_chBright : (s.bodyStart bNew).chBright = s.chBright := by simp [State.bodyStart]
@[simp] theorem bodyStart_responses : (s.bodyStart bNew).responses = s.responses := by simp [State.bodyStart]
@[simp] theorem bodyStart_pending : (s.bodyStart bNew).pending = s.pending := by simp [State.bodyStart]
@[simp] theorem bodyStart_drawAt (k : Nat) : (s.bodyStart bNew).drawAt k = s.drawAt (k + s.wakeDraws bNew) :=
  poweredUp_drawAt ..
@[simp] theorem bodyEnd_config : (s.bodyEnd led v bNew).config = s.config := by simp [State.bodyEnd, ledWrite]
end

/-- The channels that LED_WRITE drives are distinct channels of the chip (R94). -/
theorem ledOutputs_channels {p : Params} {led : Led} (hcfg : cfgValid p = true) (hled : led ∈ p.leds) (v : Byte) :
    (∀ x ∈ ledOutputs v led, x.1 < 4 ∧ 6 + x.1 < regCount p) ∧ ((ledOutputs v led).map Prod.fst).Nodup := by
  obtain ⟨hnodup, hmem, _⟩ := cfgValid_led hcfg hled
  rw [ledOutputs_fst]
  refine ⟨fun x hx => ?_, hnodup⟩
  obtain ⟨h4, hcount, _⟩ := hmem x.1 (by rw [← ledOutputs_fst v]; exact List.mem_map_of_mem hx)
  exact ⟨h4, hcount⟩

section
variable {s : State} {led : Led} {bNew : List Byte}

/-- A body that starts on a powered chip, its wake having been answered OK: only RESET_CTRL has changed (R68). -/
theorem bodyStart_facts (hwake : s.okFor (s.wakeDraws bNew)) (hp : s.poweredFor bNew) (hwf : s.image.wf = true) :
    (s.bodyStart bNew).psrcOn = true ∧ (s.bodyStart bNew).image.wf = true ∧
    (s.bodyStart bNew).trace = s.trace ++ (if s.mustWake bNew then wakeEvents else []) ∧
    (s.bodyStart bNew).chipMode = (if s.mustWake bNew then .awake else s.chipMode) ∧
    ∀ a, (s.bodyStart bNew).reg a = if s.mustWake bNew = true ∧ a = 0 then RegVal.full 0x00#8 else s.reg a :=
  poweredUp_facts (s := s.setLedBright bNew) hwake hp hwf

/-- What the body leaves alone on a powered chip, whatever it is answered: all but the members' fields and currents. -/
theorem bodyEnd_frame (hcfg : cfgValid s.config = true) (hled : led ∈ s.config.leds) (v : Byte)
    (hwake : s.okFor (s.wakeDraws bNew)) (hp : s.poweredFor bNew) (hwf : s.image.wf = true) :
    (s.bodyEnd led v bNew).psrcOn = true ∧ (s.bodyEnd led v bNew).image.wf = true ∧
    (s.bodyEnd led v bNew).chipMode = (if s.mustWake bNew then .awake else s.chipMode) ∧
    (s.bodyEnd led v bNew).reg 0 = (if s.mustWake bNew then RegVal.full 0x00#8 else s.reg 0) ∧
    (∀ d, d < 4 → d ∉ ledMembers led → (s.bodyEnd led v bNew).ctrlField d = s.ctrlField d) ∧
    (∀ a, a ≠ 0 → a ≠ 4 → (∀ c ∈ ledMembers led, a ≠ 6 + c) → (s.bodyEnd led v bNew).reg a = s.reg a) := by
  obtain ⟨hchan, hnodup⟩ := ledOutputs_channels hcfg hled v
  obtain ⟨hon, hwf', _, hmode, hreg⟩ := bodyStart_facts hwake hp hwf
  obtain ⟨_, hfield, hother⟩ := writeChannels_regs (ledOutputs v led) hwf' (by rwa [bodyStart_config]) hnodup
  rw [ledOutputs_fst] at hfield hother
  have hchip : (s.bodyEnd led v bNew).chipMode = (s.bodyStart bNew).chipMode :=
    writeChannels_chipMode _ _ fun x hx => by have := (hchan x hx).1; omega
  refine ⟨(writeChannels_psrcOn ..).trans hon, writeChannels_wf _ hwf', hchip.trans hmode, ?_, fun d hd hmem => ?_,
    fun a h0 h4 hmem => ?_⟩
  · exact (hother 0 (by omega) (by omega)).trans ((hreg 0).trans (by simp))
  · exact (hfield d hd hmem).trans (ctrlField_of_reg_eq ((hreg 4).trans (by simp)) d)
  · exact (hother a h4 hmem).trans ((hreg a).trans (by simp [h0]))

/-! ### Every answer OK -/

/-- A sleep that keeps the image changes RESET_CTRL only (R41, R69). -/
theorem poweredDown_reg_of_kept {z : Bool} (h : s.okFor 2) (hp : s.psrcOn = true) (hwf : s.image.wf = true)
    (hkeep : z = false ∨ s.config.retainOnPowerOff = true) (a : Nat) :
    (s.poweredDown z).reg a = if z = true ∧ a = 0 then RegVal.full 0x08#8 else s.reg a := by
  cases z with
  | false => simp [State.poweredDown]
  | true =>
    have hret : s.config.retainOnPowerOff = true := hkeep.resolve_left (by decide)
    simp [State.poweredDown, slept_reg h hp hwf, hret]

theorem poweredDown_chipMode {z : Bool} (h : s.okFor 2) :
    (s.poweredDown z).chipMode = if z then .unset else s.chipMode := by
  cases z
  · rfl
  · exact slept_chipMode h

/-- SET_BRIGHTNESS with every answer OK is its body, then the sleep where there is one (R79, R80). -/
theorem setBrightness_allOk_eq {t : BitVec 4} {v : Byte} (hl : s.lifecycle = .attached) (hled : targetLed s t = some led)
    (h : s.okFor (2 * (ledOutputs v led).length + 4)) (on off : Millis) :
    exec (.setBrightness t v on off) s =
      .next (((s.bodyEnd led v (s.ledBright.set t.toNat v)).poweredDown
        (s.mustSleep (s.ledBright.set t.toNat v))).respond ⟨.ok, 0#64, 0#64⟩) := by
  have hexec : exec (.setBrightness t v on off) s = _ := execSetBrightness_eq hl t v on off hled
  rw [hexec, setBrightnessBody, gated_okBody (ledWrite_okBody led v) _ h, conclude_done]
  rfl

theorem wakeDraws_le (s : State) (bNew : List Byte) : s.wakeDraws bNew ≤ 2 := by
  unfold State.wakeDraws
  split <;> omega

theorem wakeDraws_okFor {n : Nat} (h : s.okFor (n + 4)) : s.okFor (s.wakeDraws bNew) :=
  State.okFor_mono h (by have := wakeDraws_le s bNew; omega)

theorem bodyStart_okFor {n : Nat} (h : s.okFor (n + 2)) : (s.bodyStart bNew).okFor n := fun k hk => by
  have := wakeDraws_le s bNew
  rw [bodyStart_drawAt]
  exact h _ (by omega)

/-- The body on a powered chip with every answer OK: each member's current code and mode, and two answers OK to come. -/
theorem bodyEnd_ok (hcfg : cfgValid s.config = true) (hled : led ∈ s.config.leds) (v : Byte) (hp : s.poweredFor bNew)
    (hwf : s.image.wf = true) (h : s.okFor (2 * (ledOutputs v led).length + 4)) :
    (s.bodyEnd led v bNew).okFor 2 ∧
    ∀ x ∈ ledOutputs v led, (s.bodyEnd led v bNew).reg (6 + x.1) = RegVal.full (iledCode x.2) ∧
      (s.bodyEnd led v bNew).channelMode x.1 = some (modeFor x.2) := by
  obtain ⟨hchan, hnodup⟩ := ledOutputs_channels hcfg hled v
  have hstart : (s.bodyStart bNew).okFor (2 * (ledOutputs v led).length + 2) := bodyStart_okFor h
  have hbody := State.okFor_mono hstart (Nat.le_add_right _ 2)
  obtain ⟨hon, hwf', _⟩ := bodyStart_facts (wakeDraws_okFor (bNew := bNew) h) hp hwf
  refine ⟨fun k hk => ?_, writeChannels_ok_regs _ hbody hon hwf' (by rwa [bodyStart_config]) hnodup⟩
  rw [State.bodyEnd, (ledWrite_okBody led v).drawAt _ hbody]
  exact hstart _ (by omega)

end

/-- Settles O20: the body's registers (`bodyEnd_ok`, `bodyEnd_frame`), then what the sleep leaves of them. -/
theorem setBrightnessRegisters : Obligations.SetBrightnessRegisters := by
  intro s t v on off led hl hcfg hwf hled hp h
  have hexec := setBrightness_allOk_eq hl hled h on off
  generalize s.ledBright.set t.toNat v = bNew at hexec hp ⊢
  obtain ⟨hend, hmembers⟩ := bodyEnd_ok hcfg (targetLed_mem hled) v hp hwf h
  obtain ⟨hon, hwf', hmode, hreg0, hfield, hother⟩ :=
    bodyEnd_frame hcfg (targetLed_mem hled) v (wakeDraws_okFor (bNew := bNew) h) hp hwf
  refine ⟨_, hexec, fun hkeep => ?_, fun hlost a => ?_, ?_⟩
  · have hreg := poweredDown_reg_of_kept hend hon hwf' (by rwa [bodyEnd_config])
    have hctrl := ctrlField_of_reg_eq ((hreg 4).trans (if_neg fun hc => absurd hc.2 (by decide)))
    refine ⟨fun x hx => ⟨?_, ?_⟩, fun d hd hnot => (hctrl d).trans (hfield d hd hnot), fun a h0 h4 hnot => ?_, ?_⟩
    · exact (hreg _).trans ((if_neg (by omega)).trans (hmembers x hx).1)
    · rw [channelMode_eq_some_iff]
      exact (hctrl _).trans ((channelMode_eq_some_iff ..).1 (hmembers x hx).2)
    · exact (hreg a).trans ((if_neg fun hc => h0 hc.2).trans (hother a h0 h4 hnot))
    · rw [reg_respond, hreg 0, hreg0, State.resetCtrlAfter]
      simp
  · simp only [State.keepsImage, not_or, Bool.not_eq_false, Bool.not_eq_true] at hlost
    obtain ⟨hsleep, hret⟩ := hlost
    rw [hsleep]
    exact slept_reg_of_lost hend (by rwa [bodyEnd_config]) a
  · rw [State.respond_chipMode, poweredDown_chipMode hend, hmode]
    rfl

/-! ### The first answer ERR (R99, R100) -/

section
variable {s : State} {led : Led} {bNew : List Byte}

/-- In a body on a powered chip whose `k`-th transaction is the first answered ERR, the `j`-th is issued and lands exactly when
it counts as written (R37, D20). -/
theorem issued_and_landed_iff {w k : Nat} {u : State} (hon : u.psrcOn = true) (hd : ∀ j, u.drawAt j = s.drawAt (j + w))
    (hok : s.okFor (w + k)) (herr : (s.drawAt (w + k)).result = .err) (j : Nat) :
    (u.okFor j ∧ u.landsAt j = true) ↔ s.wrote w k j = true := by
  have hku : (u.drawAt k).result = .err := by rw [hd, Nat.add_comm, herr]
  have hbefore : u.okFor k := fun i hi => by
    rw [hd]
    exact hok _ (by omega)
  rcases Nat.lt_trichotomy j k with hlt | rfl | hgt
  · have hwrote : s.wrote w k j = true := by simp [State.wrote, hlt]
    exact iff_of_true ⟨State.okFor_mono hbefore hlt.le, landsAt_of_ok hon (hbefore j hlt)⟩ hwrote
  · rw [and_iff_right hbefore]
    simp [State.wrote, State.landsAt, hd, Nat.add_comm, herr]
  · have hstopped : ¬u.okFor j := fun h => by
      rw [h k hgt] at hku
      cases hku
    have hwrote : s.wrote w k j ≠ true := by simp [State.wrote, hgt.le, Nat.ne_of_gt hgt]
    exact iff_of_false (fun h => hstopped h.1) hwrote

theorem Micro.andThen_of_some {m : Micro} {e : Error} (h : m.raised = some e) (f : State → Micro) :
    m.andThen f = raise e m.state := by
  obtain ⟨u, r⟩ := m
  obtain rfl : r = some e := h
  rfl

/-- An error that the body raises ends GATED: nothing is powered down (R79, R99). -/
theorem gated_of_body_raised {body : State → Micro} {e : Error} (hwake : s.okFor (s.wakeDraws bNew))
    (hraised : (body (s.bodyStart bNew)).raised = some e) :
    gated s.ledBright bNew body (s.setLedBright bNew) = raise e (body (s.bodyStart bNew)).state :=
  (gated_runs s.ledBright bNew body (s.setLedBright bNew) hwake).trans (Micro.andThen_of_some hraised _)

/-- What the body has written of its `j`-th member when its `k`-th transaction is the first answered ERR (R77, R100). -/
theorem bodyEnd_member (hcfg : cfgValid s.config = true) (hled : led ∈ s.config.leds) (v : Byte) (hp : s.poweredFor bNew)
    (hwf : s.image.wf = true) {k : Nat} (hok : s.okFor (s.wakeDraws bNew + k))
    (herr : (s.drawAt (s.wakeDraws bNew + k)).result = .err) {j : Nat} {x : Nat × Byte}
    (hx : (ledOutputs v led)[j]? = some x) :
    (s.bodyEnd led v bNew).reg (6 + x.1) =
      (if s.wrote (s.wakeDraws bNew) k (2 * j) then RegVal.full (iledCode x.2) else s.reg (6 + x.1)) ∧
    (s.wrote (s.wakeDraws bNew) k (2 * j + 1) = true → (s.bodyEnd led v bNew).channelMode x.1 = some (modeFor x.2)) ∧
    (s.wrote (s.wakeDraws bNew) k (2 * j + 1) = false → (s.bodyEnd led v bNew).ctrlField x.1 = s.ctrlField x.1) := by
  obtain ⟨hchan, hnodup⟩ := ledOutputs_channels hcfg hled v
  obtain ⟨hon, hwf', _, _, hreg⟩ := bodyStart_facts (State.okFor_mono hok (Nat.le_add_right _ k)) hp hwf
  obtain ⟨hcode, hold, hmode, hfield⟩ :=
    (writeChannels_regs (ledOutputs v led) hwf' (by rwa [bodyStart_config]) hnodup).1 j x hx
  simp only [issued_and_landed_iff hon (bodyStart_drawAt s bNew) hok herr] at hcode hold hmode hfield
  refine ⟨?_, hmode, fun hnot => ?_⟩
  · split
    · rename_i hwrote
      exact hcode hwrote
    · rename_i hwrote
      exact (hold hwrote).trans ((hreg _).trans (if_neg (by omega)))
  · exact (hfield (by simp [hnot])).trans (ctrlField_of_reg_eq ((hreg 4).trans (by simp)) _)

end

/-- Settles O23: the body raises at its `k`-th transaction (`writeChannels_err`), and that ends the request. -/
theorem bodyBusErrorStopsWithoutRollback : Obligations.BodyBusErrorStopsWithoutRollback := by
  intro s t v on off led w k hl hcfg hwf hled hp hw hk hok herr
  have hexec : exec (.setBrightness t v on off) s = _ := execSetBrightness_eq hl t v on off hled
  rw [setBrightnessBody] at hexec
  subst hw
  generalize s.ledBright.set t.toNat v = bNew at hexec hp hok herr ⊢
  have hwake := State.okFor_mono hok (Nat.le_add_right _ k)
  have hbefore : (s.bodyStart bNew).okFor k := fun j hj => by
    rw [bodyStart_drawAt]
    exact hok _ (by omega)
  obtain ⟨hraised, htrace, hch⟩ := writeChannels_err (ledOutputs v led) (s := s.bodyStart bNew) k hk hbefore
    (by rw [bodyStart_drawAt, Nat.add_comm, herr])
  rw [gated_of_body_raised (body := ledWrite led v) hwake hraised, conclude_raise] at hexec
  obtain ⟨_, _, hstart, _⟩ := bodyStart_facts hwake hp hwf
  obtain ⟨hon, _, hmode, hreg0, hfield, hother⟩ := bodyEnd_frame hcfg (targetLed_mem hled) v hwake hp hwf
  refine ⟨_, hexec, ?_, ?_, fun j x hx => bodyEnd_member hcfg (targetLed_mem hled) v hp hwf hok herr hx, hfield, hother,
    hreg0, hmode, ?_, ?_, ?_, hon, ?_⟩
  · rw [State.respond_trace, ledWrite, htrace, hstart]
  · simp [ledWrite, Error.status]
  · simp [ledWrite]
  · rw [State.respond_chBright, ledWrite, hch, bodyStart_chBright]
  · simp [ledWrite]
  · simp [ledWrite]

/-! ### A brightness request stops a blink (R122) -/

/-- Only a channel of field `10` blinks (R108, R109). -/
theorem channelMode_of_blink {s : State} {c : Nat} {p : Option Nat} {duty code : Option Byte}
    (h : s.channelOutput c = .blink p duty code) : s.channelMode c = some 2#2 := by
  have hawake : s.awakeOutput c = .blink p duty code := by
    simp only [State.channelOutput, State.presentOutput] at h
    split at h
    · cases hpower : s.chipPower with
      | awake => simpa only [hpower] using h
      | _ => simp [hpower] at h
    · cases h
  unfold State.awakeOutput at hawake
  split at hawake
  · cases hawake
  · rename_i f hf
    split at hawake
    · cases hawake
    · cases hawake
    · rename_i h2
      have hblink : f = 2#2 := BitVec.eq_of_toNat_eq h2
      rw [hf, hblink]
    · cases hawake

theorem channelOutput_of_unpowered {s : State} (h : s.psrcOn = false) {c : Nat} (hc : c < s.config.channelCount) :
    s.channelOutput c = .off := by
  rw [State.channelOutput, if_pos hc, State.presentOutput, State.chipPower, h]
  rfl

theorem modeFor_cases (b : Byte) : modeFor b = 0#2 ∨ modeFor b = 1#2 := by
  unfold modeFor
  split
  · exact .inl rfl
  · exact .inr rfl

/-- Settles O48: a member's field is the mode of its brightness (O20), and a chip that was powered down is dark (O19). -/
theorem brightnessStopsBlink : Obligations.BrightnessStopsBlink := by
  intro s t v on off led c hl hcfg hwf hled hp h hc
  obtain ⟨u, hexec, hkept, _⟩ := setBrightnessRegisters s t v on off led hl hcfg hwf hled hp h
  obtain ⟨u', hexec', _, _, _, _, _, hpsrc, _, _, hconfig, _⟩ := setBrightnessAllOk s t v on off led hl hled h
  obtain rfl := Host.Outcome.next.inj (hexec.symm.trans hexec')
  obtain ⟨x, hx, rfl⟩ : ∃ x ∈ ledOutputs v led, x.1 = c := by
    rwa [← ledOutputs_fst v, List.mem_map] at hc
  have hmode (hkeep : s.keepsImage (s.ledBright.set t.toNat v)) :
      u.channelMode x.1 = some 0#2 ∨ u.channelMode x.1 = some 1#2 := by
    rw [((hkept hkeep).1 x hx).2]
    exact (modeFor_cases x.2).imp (congrArg some) (congrArg some)
  have hdark (hsleep : s.mustSleep (s.ledBright.set t.toNat v) = true) : u.channelOutput x.1 = .off := by
    refine channelOutput_of_unpowered (by rw [hpsrc, hsleep]; rfl) ?_
    rw [hconfig]
    exact ((cfgValid_led hcfg (targetLed_mem hled)).2.1 x.1 hc).2.2
  refine ⟨u, hexec, hmode, hdark, fun p duty code hblink => ?_⟩
  cases hsleep : s.mustSleep (s.ledBright.set t.toNat v) with
  | true =>
    rw [hdark hsleep] at hblink
    cases hblink
  | false =>
    have hfield := hmode (.inl hsleep)
    rw [channelMode_of_blink hblink] at hfield
    revert hfield
    decide

end Sys2Proof.Machine
end

section
/-! PROOFS. Turning off the last active LED of an enabled chip (42_power_gating.md R81): a brightness of 0 is 0 on every member of
a group, and the power-down whose answers are both OK is the undisturbed case of `powerDownFailuresSwallowed`. -/

namespace Sys2Proof.Machine

open Sys2Proof

theorem scaledOutput_zero (w : Nat) : scaledOutput 0#8 w = 0#8 := by simp [scaledOutput]

/-- R73, R78: brightness 0 reaches every member as 0, whatever its weight. -/
theorem ledOutputs_zero (led : Led) : ledOutputs 0#8 led = (ledMembers led).map fun c => (c, 0#8) := by
  cases led with
  | single c => rfl
  | group ms => simp [ledOutputs, ledMembers, scaledOutput_zero]

theorem ctrlData_zero (c : Nat) : ctrlData c 0#2 = 0#8 := by simp [ctrlData]

/-- SET_CHANNEL to 0 writes the current code 0 and the mode "off" (R71, R72, R77). -/
theorem channelEvents_zero (c : Nat) : channelEvents c 0#8 =
    [.bus .write (iledAddr c) 0xFF#8 0#8 .ok, .bus .update 0x04#8 (ctrlMask c) 0#8 .ok] := by
  have hcode : iledCode 0#8 = 0#8 := rfl
  have hmode : modeFor 0#8 = 0#2 := rfl
  rw [channelEvents, hcode, hmode, ctrlData_zero]

/-- Settles O21: the case of O24 in which the sleep write and the disable are both answered OK. -/
theorem lastLedOffPowersDown : Obligations.LastLedOffPowersDown := by
  intro s t on off led hl he hled _ hzero h
  obtain ⟨u, hexec, _, htrace, hen⟩ :=
    powerDownFailuresSwallowed s t on off led hl he hled hzero (State.okFor_mono h (by omega))
  rw [ledOutputs_zero, List.flatMap_map, h _ (by omega), h _ (by omega)] at htrace
  rw [h _ (by omega)] at hen
  simp only [channelEvents_zero] at htrace
  exact ⟨u, hexec, htrace, hen⟩

end Sys2Proof.Machine
end

section
/-! PROOFS. The blink timing quantizer (43_blink_quantizer.md R82 to R86) and the timing of the default pattern
(95_test_vectors.md E1). -/

namespace Sys2Proof.Machine

open Sys2Proof

/-! ### The step count (R83, R84) -/

/-- R84: below the least period the step count is 1, above it the remaining time is rounded up to whole steps. -/
theorem quantizedSteps_eq (S : Nat) :
    quantizedSteps S = if S ≤ 256 then 1 else min 126 ((S - 256 + 127) / 128 + 1) := by
  unfold quantizedSteps clamp ceilDiv
  split <;> omega

/-- The sums between two whole numbers of steps above 256 round up to the greater (R84). -/
theorem quantizedSteps_of_row {S k : Nat} (hk : 1 ≤ k) (hk' : k ≤ 125) (hlo : 256 + 128 * (k - 1) + 1 ≤ S)
    (hhi : S ≤ 256 + 128 * k) : quantizedSteps S = k + 1 := by
  rw [quantizedSteps_eq, if_neg (by omega)]
  omega

/-- Settles O26: the rows of the table are cases of `quantizedSteps_eq`. -/
theorem stepCountByRequestedSum : Obligations.StepCountByRequestedSum := by
  have hperiod {S n : Nat} (h : quantizedSteps S = n) : periodMs (quantizedSteps S) = 128 * n + 256 := by
    rw [h, periodMs, Nat.mul_comm]
  refine ⟨fun S _ hhi => ?_, fun S hlo hhi => ?_, fun S k hk hk' hlo hhi => ?_, fun S hlo => ?_, fun S hlo => ?_⟩
  · have h : quantizedSteps S = 1 := by rw [quantizedSteps_eq, if_pos hhi]
    exact ⟨h, hperiod h⟩
  · have h : quantizedSteps S = 2 := quantizedSteps_of_row (k := 1) (by omega) (by omega) hlo hhi
    exact ⟨h, hperiod h⟩
  · have h := quantizedSteps_of_row hk hk' hlo hhi
    exact ⟨h, hperiod h⟩
  · have h : quantizedSteps S = 126 := by
      rw [quantizedSteps_eq, if_neg (by omega)]
      omega
    exact ⟨h, hperiod h⟩
  · rw [quantizedSteps_eq, if_neg (by omega)]

/-! ### The duty code and the achieved times (R82, R83) -/

section
variable {on off : Nat}

theorem quantize_steps_bounds : 1 ≤ (quantize on off).steps ∧ (quantize on off).steps ≤ 126 :=
  quantizedSteps_bounds (on + off)

/-- The duty code is the floor of `256 * on / (on + off)`. -/
theorem quantize_code_floor (hoff : 1 ≤ off) :
    (quantize on off).code * (on + off) ≤ on * 256 ∧ on * 256 < ((quantize on off).code + 1) * (on + off) :=
  ⟨Nat.div_mul_le_self _ _, by
    rw [Nat.mul_comm (_ + 1)]
    exact Nat.lt_mul_div_succ _ (by omega)⟩

/-- An off-time keeps the ratio below 1, so the duty code is a byte. -/
theorem quantize_code_le (hoff : 1 ≤ off) : (quantize on off).code ≤ 255 := by
  have hlt : on * 256 / (on + off) < 256 := Nat.div_lt_of_lt_mul (by omega)
  exact Nat.le_of_lt_succ hlt

/-- The achieved on-time is the duty code's share of the period, rounded down. -/
theorem quantize_actualOn_floor :
    (quantize on off).actualOn * 256 ≤ periodMs (quantize on off).steps * (quantize on off).code ∧
    periodMs (quantize on off).steps * (quantize on off).code < ((quantize on off).actualOn + 1) * 256 :=
  ⟨Nat.div_mul_le_self _ _, by
    rw [Nat.mul_comm (_ + 1)]
    exact Nat.lt_mul_div_succ _ (by decide)⟩

/-- The achieved times add up to the period. -/
theorem quantize_times_sum (hoff : 1 ≤ off) :
    (quantize on off).actualOn + (quantize on off).actualOff = periodMs (quantize on off).steps := by
  have hcode := quantize_code_le (on := on) hoff
  have hshare : (quantize on off).actualOn ≤ periodMs (quantize on off).steps :=
    Nat.div_le_of_le_mul (by
      rw [Nat.mul_comm 256]
      exact Nat.mul_le_mul_left _ (hcode.trans (by decide)))
  exact Nat.add_sub_cancel' hshare

end

/-- Settles O27: the clamp bounds the steps, and each quotient is a floor. -/
theorem quantizeResultsFit : Obligations.QuantizeResultsFit := by
  intro on off _ hoff
  obtain ⟨hlo, hhi⟩ := quantize_steps_bounds (on := on) (off := off)
  obtain ⟨hcode, hcode'⟩ := quantize_code_floor (on := on) hoff
  obtain ⟨hon, hon'⟩ := quantize_actualOn_floor (on := on) (off := off)
  exact ⟨hlo, hhi, quantize_code_le hoff, quantize_times_sum hoff, hcode, hcode', hon, hon'⟩

/-! ### QUANTIZE of its own output (R86) -/

/-- The period of `n` steps is the longest sum that rounds to one step more. -/
theorem quantizedSteps_periodMs {n : Nat} (hn : 1 ≤ n) : quantizedSteps (periodMs n) = min 126 (n + 1) := by
  rw [quantizedSteps_eq, periodMs, if_neg (by omega)]
  omega

/-- Taking `c` 256ths of a period above 256, and the 256ths that this part is of the period, loses less than one of them. -/
theorem floor_of_floor_cases {P c : Nat} (hP : 256 < P) :
    P * c / 256 * 256 / P + 1 = c ∨ P * c / 256 * 256 / P = c := by
  have hle : P * c / 256 * 256 / P ≤ c := Nat.div_le_of_le_mul (Nat.div_mul_le_self _ _)
  have hge : c - 1 ≤ P * c / 256 * 256 / P := by
    rw [Nat.le_div_iff_mul_le (by omega), Nat.sub_mul, Nat.mul_comm c P]
    omega
  omega

/-- Settles O28: the sum of the achieved times is the period (`quantizedSteps_periodMs`), and the duty code comes back through
two floors (`floor_of_floor_cases`). -/
theorem requantizationGrowsOneStep : Obligations.RequantizationGrowsOneStep := by
  refine ⟨fun on off _ hoff => ?_, by decide, by decide⟩
  have hsum := quantize_times_sum (on := on) hoff
  obtain ⟨hlo, _⟩ := quantize_steps_bounds (on := on) (off := off)
  refine ⟨?_, ?_⟩
  · calc quantizedSteps ((quantize on off).actualOn + (quantize on off).actualOff)
        = quantizedSteps (periodMs (quantize on off).steps) := by rw [hsum]
      _ = min 126 ((quantize on off).steps + 1) := quantizedSteps_periodMs hlo
  · have hcode : (quantize (quantize on off).actualOn (quantize on off).actualOff).code =
        (quantize on off).actualOn * 256 / periodMs (quantize on off).steps := by
      rw [← hsum]
      rfl
    have hperiod : 256 < periodMs (quantize on off).steps := by
      unfold periodMs
      omega
    rw [hcode]
    exact floor_of_floor_cases hperiod

/-! ### The registers' bytes and the times returned (R85) -/

/-- QUANTIZE's results need no more bits than they are given. -/
theorem blinkTiming_of_inBand {on off : Millis} (hoff : off ≠ 0#64) (hband : inBand on.toNat off.toNat = true) (s : State) :
    (blinkTiming on off s).steps.toNat = (quantize on.toNat off.toNat).steps ∧
    (blinkTiming on off s).code.toNat = (quantize on.toNat off.toNat).code ∧
    (blinkTiming on off s).onOut.toNat = (quantize on.toNat off.toNat).actualOn ∧
    (blinkTiming on off s).offOut.toNat = (quantize on.toNat off.toNat).actualOff := by
  have hpos : 1 ≤ off.toNat := by bv_omega
  obtain ⟨_, hsteps⟩ := quantize_steps_bounds (on := on.toNat) (off := off.toNat)
  have hcode := quantize_code_le (on := on.toNat) hpos
  have hsum := quantize_times_sum (on := on.toNat) hpos
  have hperiod : periodMs (quantize on.toNat off.toNat).steps ≤ 16384 := by
    unfold periodMs
    omega
  simp only [blinkTiming, hband, if_true, BitVec.toNat_ofNat]
  refine ⟨Nat.mod_eq_of_lt ?_, Nat.mod_eq_of_lt ?_, Nat.mod_eq_of_lt ?_, Nat.mod_eq_of_lt ?_⟩ <;> omega

/-- Settles O29: `blinkTiming_of_inBand` in the band, `blinkTiming_steps_bounds` everywhere. -/
theorem timingExactInsideBand : Obligations.TimingExactInsideBand := by
  intro on off s _ hoff
  refine ⟨fun hon hsum => blinkTiming_of_inBand hoff ?_ s, blinkTiming_steps_bounds on off s⟩
  simpa [inBand] using And.intro hon hsum

/-- Settles O34: 500 and 500 lie in the band, where the timing is computed. -/
theorem blinkDefaultTiming : Obligations.BlinkDefaultTiming := by
  intro s
  have hband : inBand (500#64 : Millis).toNat (500#64 : Millis).toNat = true := by decide
  rw [blinkTiming, if_pos hband]
  rfl

end Sys2Proof.Machine
end

section
/-! PROOFS. SET_BLINK by path: the response that ends it, the default pattern and the never-on path, and the general and the
always-on path with every answer OK (43_blink_quantizer.md R87 to R93; 42_power_gating.md R79). -/

namespace Sys2Proof.Machine

open Sys2Proof

/-! ### The response that ends a request (R92, R99) -/

/-- The response of a request that ends with `m`, by the times given for OK and for an error. -/
def Micro.response (m : Micro) (okOn okOff errOn errOff : Millis) : Response :=
  match m.raised with
  | none => ⟨.ok, okOn, okOff⟩
  | some e => ⟨e.status, errOn, errOff⟩

theorem Micro.conclude_eq_respond (m : Micro) (a b c d : Millis) :
    m.conclude a b c d = m.state.respond (m.response a b c d) := by
  unfold Micro.conclude Micro.response
  cases m.raised <;> rfl

theorem Error.status_ne_ok (e : Error) : e.status ≠ .ok := by cases e <;> decide

/-- What was raised settles the status and which of the two pairs of times is returned. -/
theorem Micro.response_cases (m : Micro) : (∀ a b c d, m.response a b c d = ⟨.ok, a, b⟩) ∨
    ∃ st, st ≠ Status.ok ∧ ∀ a b c d, m.response a b c d = ⟨st, c, d⟩ := by
  unfold Micro.response
  cases m.raised with
  | none => exact .inl fun _ _ _ _ => rfl
  | some e => exact .inr ⟨e.status, e.status_ne_ok, fun _ _ _ _ => rfl⟩

/-- The status does not depend on the times. -/
theorem Micro.response_status (m : Micro) (a b c d a' b' c' d' : Millis) :
    (m.response a b c d).status = (m.response a' b' c' d').status := by
  rcases m.response_cases with h | ⟨_, _, h⟩ <;> rw [h, h]

/-- With the same times either way, those are returned. -/
theorem Micro.response_times (m : Micro) (a b : Millis) :
    (m.response a b a b).onOut = a ∧ (m.response a b a b).offOut = b := by
  rcases m.response_cases with h | ⟨_, _, h⟩ <;> rw [h] <;> exact ⟨rfl, rfl⟩

section
variable {i i' : Instr} {s : State} {m : Micro} {a b c d a' b' c' d' : Millis}

/-- A request answers with the response of the micro-operation that it ends with. -/
theorem answers_response (hi : i.isRequest = true) (h : exec i s = .next (m.conclude a b c d)) :
    exec i s = .next (m.state.respond (m.response a b c d)) ∧
    s.Answers (m.state.respond (m.response a b c d)) (m.response a b c d) := by
  rw [Micro.conclude_eq_respond] at h
  exact ⟨h, request_answers hi h⟩

/-- The times a request returns: one pair when it ends OK, the other when it does not. -/
theorem answers_times (hi : i.isRequest = true) (h : exec i s = .next (m.conclude a b c d)) :
    ∃ u r, exec i s = .next u ∧ s.Answers u r ∧ (r.status = .ok → r.onOut = a ∧ r.offOut = b) ∧
      (r.status ≠ .ok → r.onOut = c ∧ r.offOut = d) := by
  obtain ⟨hexec, hans⟩ := answers_response hi h
  refine ⟨_, _, hexec, hans, ?_⟩
  rcases m.response_cases with hm | ⟨st, hst, hm⟩ <;> rw [hm]
  · exact ⟨fun _ => ⟨rfl, rfl⟩, fun hne => absurd rfl hne⟩
  · exact ⟨fun heq => absurd heq hst, fun _ => ⟨rfl, rfl⟩⟩

/-- Two requests that end with one micro-operation differ in the times they return only. -/
theorem same_but_times (hi : i.isRequest = true) (hi' : i'.isRequest = true)
    (h : exec i s = .next (m.conclude a b c d)) (h' : exec i' s = .next (m.conclude a' b' c' d')) :
    ∃ u u' r r', exec i s = .next u ∧ exec i' s = .next u' ∧ s.Answers u r ∧ s.Answers u' r' ∧
      { u with responses := s.responses } = { u' with responses := s.responses } ∧ r.status = r'.status ∧
      r = m.response a b c d ∧ r' = m.response a' b' c' d' := by
  obtain ⟨hexec, hans⟩ := answers_response hi h
  obtain ⟨hexec', hans'⟩ := answers_response hi' h'
  exact ⟨_, _, _, _, hexec, hexec', hans, hans', rfl, m.response_status .., rfl, rfl⟩

end

/-! ### The paths (R87, R88) -/

/-- SET_BLINK is illegal whatever its times are, or it serves its LED. -/
theorem setBlink_legality (s : State) (t : BitVec 4) :
    (∀ on off, exec (.setBlink t on off) s = .next (illegalRequest on off s)) ∨
    ∃ led, s.lifecycle = .attached ∧ targetLed s t = some led := by
  by_cases hl : s.lifecycle = .attached
  · cases hled : targetLed s t with
    | none => exact .inl (execSetBlink_noTarget hled)
    | some led => exact .inr ⟨led, hl, rfl⟩
  · exact .inl fun on off => exec_outside_table rfl fun hmem => hl (List.mem_singleton.1 hmem)

/-- GATED on one of SET_BLINK's own bodies, which leave the brightnesses as they are (R89, R91). -/
def gatedBlink (body : State → Micro) (s : State) : Micro :=
  gated s.ledBright s.ledBright body (s.setLedBright s.ledBright)

section
variable {s : State} {t : BitVec 4} {led : Led} (hl : s.lifecycle = .attached) (hled : targetLed s t = some led)
include hl hled

theorem exec_blinkGeneral {on off : Millis} (hon : on ≠ 0#64) (hoff : off ≠ 0#64) : exec (.setBlink t on off) s =
    .next ((gatedBlink (blinkWrites (ledMembers led) (blinkTiming on off s)) s).conclude
      (blinkTiming on off s).onOut (blinkTiming on off s).offOut on off) := by
  rw [exec, execSetBlink_eq hl t on off hled]
  simp only [setBlinkBody, hon, hoff, false_and, if_false]
  rfl

theorem exec_blinkDefault : exec (.setBlink t 0#64 0#64) s =
    .next ((gatedBlink (blinkWrites (ledMembers led) (blinkTiming 500#64 500#64 s)) s).conclude
      (blinkTiming 500#64 500#64 s).onOut (blinkTiming 500#64 500#64 s).offOut 0#64 0#64) :=
  execSetBlink_eq hl t 0#64 0#64 hled

theorem exec_blinkAlwaysOn {on : Millis} (hon : on ≠ 0#64) : exec (.setBlink t on 0#64) s =
    .next ((gatedBlink (groupCtrl (ledMembers led) 1#2) s).conclude on 0#64 on 0#64) := by
  rw [exec, execSetBlink_eq hl t on 0#64 hled]
  simp only [setBlinkBody, hon, false_and, if_false, if_true]
  rfl

theorem exec_blinkNeverOn {off : Millis} (hoff : off ≠ 0#64) : exec (.setBlink t 0#64 off) s =
    .next ((setBrightnessBody t led 0#8 s).conclude 0#64 off 0#64 off) := by
  rw [exec, execSetBlink_eq hl t 0#64 off hled]
  simp only [setBlinkBody, hoff, and_false, if_false, if_true]
  rfl

end

/-- Settles O33: where it is legal, both requests end with the general path's body of (500, 500). -/
theorem blinkDefaultIs500By500 : Obligations.BlinkDefaultIs500By500 := by
  intro s t
  rcases setBlink_legality s t with hill | ⟨led, hl, hled⟩
  · exact ⟨_, _, ⟨.illegalRequest, 0#64, 0#64⟩, ⟨.illegalRequest, 500#64, 500#64⟩, hill _ _, hill _ _, rfl, rfl, rfl,
      rfl, fun hok => by cases hok⟩
  · obtain ⟨u, u', r, r', hexec, hexec', hans, hans', hsame, hst, rfl, rfl⟩ :=
      same_but_times rfl rfl (exec_blinkDefault hl hled)
        (exec_blinkGeneral hl hled (on := 500#64) (off := 500#64) (by decide) (by decide))
    refine ⟨u, u', _, _, hexec, hexec', hans, hans', hsame, hst, fun hok => ?_⟩
    rcases (gatedBlink (blinkWrites (ledMembers led) (blinkTiming 500#64 500#64 s)) s).response_cases with
      hm | ⟨st, hst', hm⟩
    · rw [hm, hm]
    · rw [hm] at hok
      exact absurd hok hst'

/-- Settles O37: the never-on path ends with the body of SET_BRIGHTNESS to 0 (`exec_blinkNeverOn`). -/
theorem blinkNeverOnIsBrightnessZero : Obligations.BlinkNeverOnIsBrightnessZero := by
  intro s t off on' off' hoff hl ht
  obtain ⟨led, hled⟩ := targetLed_of_lt ht
  obtain ⟨u, u', r, r', hexec, hexec', hans, hans', hsame, hst, rfl, rfl⟩ :=
    same_but_times rfl (i' := .setBrightness t 0#8 on' off') rfl (exec_blinkNeverOn hl hled hoff)
      (execSetBrightness_eq hl t 0#8 on' off' hled)
  exact ⟨u, u', _, _, hexec, hexec', hans, hans', hsame, hst, Micro.response_times ..⟩

/-- Settles O38: the times of `answers_times` on each of the four paths. -/
theorem blinkResponseTimes : Obligations.BlinkResponseTimes := by
  intro s t on off
  rcases setBlink_legality s t with hill | ⟨led, hl, hled⟩
  · exact ⟨_, ⟨.illegalRequest, on, off⟩, hill on off, rfl, by simp⟩
  · by_cases hon : on = 0#64 <;> by_cases hoff : off = 0#64
    · subst hon hoff
      obtain ⟨u, r, hexec, hans, hok, herr⟩ := answers_times rfl (exec_blinkDefault hl hled)
      rw [blinkDefaultTiming s] at hok
      exact ⟨u, r, hexec, hans, fun _ h => absurd rfl h, fun h _ _ => hok h, herr, fun h => absurd rfl h,
        fun _ h => absurd rfl h⟩
    · subst hon
      obtain ⟨u, r, hexec, hans, hok, herr⟩ := answers_times rfl (exec_blinkNeverOn hl hled hoff)
      exact ⟨u, r, hexec, hans, fun _ h => absurd rfl h, fun _ _ h => absurd h hoff, herr, fun h => absurd rfl h,
        fun _ _ => (Classical.em _).elim hok herr⟩
    · subst hoff
      obtain ⟨u, r, hexec, hans, hok, herr⟩ := answers_times rfl (exec_blinkAlwaysOn hl hled hon)
      exact ⟨u, r, hexec, hans, fun _ _ h => absurd rfl h, fun _ h => absurd h hon, herr,
        fun _ _ => (Classical.em _).elim hok herr, fun h => absurd h hon⟩
    · obtain ⟨u, r, hexec, hans, hok, herr⟩ := answers_times rfl (exec_blinkGeneral hl hled hon hoff)
      exact ⟨u, r, hexec, hans, fun h _ _ => hok h, fun _ h => absurd h hon, herr, fun _ h => absurd h hoff,
        fun h => absurd h hon⟩

/-! ### Every answer OK (R89, R91) -/

/-- The events of the general path's writes (R91). -/
def blinkEvents (cs : List Nat) (g : Timing) : List Event :=
  [.bus .write 0x01#8 0xFF#8 g.steps .ok, .bus .write 0x02#8 0xFF#8 g.code .ok,
    .bus .update 0x04#8 (groupMask cs) (groupData 2#2 cs) .ok]

/-- The event of GROUP_CTRL (R76). -/
def groupEvents (cs : List Nat) (f : BitVec 2) : List Event :=
  [.bus .update 0x04#8 (groupMask cs) (groupData f cs) .ok]

/-- What a body of SET_BLINK's own leaves alone, whatever is answered (R18, R89, R91). -/
structure BlinkBody (led : Led) (body : State → Micro) : Prop where
  acts : ∀ s, Acts led s (body s).state
  enabled : ∀ s, (body s).state.enabled = s.enabled
  psrcOn : ∀ s, (body s).state.psrcOn = s.psrcOn
  chBright : ∀ s, (body s).state.chBright = s.chBright
  chipMode : ∀ s, (body s).state.chipMode = s.chipMode
  wf : ∀ s : State, s.image.wf = true → (body s).state.image.wf = true

theorem groupCtrl_blinkBody (led : Led) : BlinkBody led (groupCtrl (ledMembers led) 1#2) where
  acts := LedBody.alwaysOn.acts
  enabled s := by simp
  psrcOn s := by simp
  chBright s := by simp
  chipMode s := by simp
  wf s h := by simpa using busUpdate_wf _ _ _ h

theorem blinkWrites_blinkBody (led : Led) (on off : Millis) (s : State) :
    BlinkBody led (blinkWrites (ledMembers led) (blinkTiming on off s)) where
  acts := (LedBody.blink on off s).acts
  enabled := blinkWrites_enabled _ _
  psrcOn := blinkWrites_psrcOn _ _
  chBright := blinkWrites_chBright _ _
  chipMode := blinkWrites_chipMode _ _
  wf _ h := blinkWrites_wf _ _ h

theorem groupCtrl_okBody (led : Led) :
    OkBody led (groupCtrl (ledMembers led) 1#2) 1 (groupEvents (ledMembers led) 1#2) id where
  acts := (groupCtrl_blinkBody led).acts
  enabled := (groupCtrl_blinkBody led).enabled
  psrcOn := (groupCtrl_blinkBody led).psrcOn
  chBright s _ := (groupCtrl_blinkBody led).chBright s
  raised s h := by rw [groupCtrl_ok _ _ h, done_raised]
  trace s h := by simp [groupEvents, State.nextDraw_eq, h 0]
  drawAt s _ k := by simp

theorem blinkWrites_okBody (led : Led) (on off : Millis) (s : State) :
    OkBody led (blinkWrites (ledMembers led) (blinkTiming on off s)) 3
      (blinkEvents (ledMembers led) (blinkTiming on off s)) id where
  acts := (blinkWrites_blinkBody led on off s).acts
  enabled := (blinkWrites_blinkBody led on off s).enabled
  psrcOn := (blinkWrites_blinkBody led on off s).psrcOn
  chBright t _ := (blinkWrites_blinkBody led on off s).chBright t
  raised t h := by rw [blinkWrites_ok _ _ h, done_raised]
  trace t h := by simp [blinkWrites_ok _ _ h, blinkEvents, State.nextDraw_eq, h 0, h 1, h 2]
  drawAt t h k := by simp [blinkWrites_ok _ _ h]

section
variable {i : Instr} {led : Led} {body : State → Micro} {n : Nat} {es : List Event} {s : State} {a b c d : Millis}

/-- A SET_BLINK that ends with such a body, every answer OK: its events within those of the wake and the sleep, its response,
and everything of the block's state (R79). -/
theorem gatedBlink_allOk (hexec : exec i s = .next ((gatedBlink body s).conclude a b c d)) (hb : OkBody led body n es id)
    (h : s.okFor (n + 4)) :
    ∃ u, exec i s = .next u ∧
      u.trace = s.trace ++ (if s.mustWake s.ledBright then wakeEvents else []) ++ es ++
        (if s.mustSleep s.ledBright then sleepEvents else []) ∧
      s.Answers u ⟨.ok, a, b⟩ ∧
      u.ledBright = s.ledBright ∧ u.chBright = s.chBright ∧ u.enabled = u.active ∧
      u.psrcOn = (!s.mustSleep s.ledBright && (s.psrcOn || s.mustWake s.ledBright)) ∧
      u.lifecycle = s.lifecycle ∧ u.config = s.config ∧ u.pending = s.pending := by
  obtain ⟨u, hrun, htrace, hresp, hlb, hch, hen, hpsrc, _, hframe⟩ := gated_allOk hb (bNew := s.ledBright) h
  rw [gatedBlink, hrun, conclude_done] at hexec
  exact ⟨_, hexec, htrace, congrArg (· ++ [_]) hresp, hlb, hch, hen, hpsrc, hframe⟩

end

/-- Settles O30: `gatedBlink_allOk` with the general path's writes. -/
theorem blinkGeneralAllOk : Obligations.BlinkGeneralAllOk := by
  intro s t on off led hl hled hon hoff h
  exact gatedBlink_allOk (exec_blinkGeneral hl hled hon hoff) (blinkWrites_okBody led on off s) h

/-- Settles O35: `gatedBlink_allOk` with the one update of the always-on path. -/
theorem blinkAlwaysOnAllOk : Obligations.BlinkAlwaysOnAllOk := by
  intro s t on led hl hled hon h
  exact gatedBlink_allOk (exec_blinkAlwaysOn hl hled hon) (groupCtrl_okBody led) h

end Sys2Proof.Machine
end

section
/-! PROOFS. The registers after SET_BLINK's general and always-on path on a powered chip: every answer OK, and the first ERR in
the body (43_blink_quantizer.md R89, R91, R92; 60_exceptions.md R99, R100). -/

namespace Sys2Proof.Machine

open Sys2Proof

/-! ### The registers that the bodies write -/

/-- A register after GROUP_CTRL, by what it held (R76). -/
def groupChange (cs : List Nat) (f : BitVec 2) : Nat → RegVal → RegVal
  | 4, r => r.update (groupMask cs) (groupData f cs)
  | _, r => r

/-- A register after the general path's writes, by what it held (R91). -/
def blinkChange (cs : List Nat) (g : Timing) : Nat → RegVal → RegVal
  | 1, _ => RegVal.full g.steps
  | 2, _ => RegVal.full g.code
  | 4, r => r.update (groupMask cs) (groupData 2#2 cs)
  | _, r => r

theorem groupChange_eq (cs : List Nat) (f : BitVec 2) (a : Nat) (r : RegVal) :
    groupChange cs f a r = if a = 4 then r.update (groupMask cs) (groupData f cs) else r := by
  unfold groupChange
  split <;> simp_all

theorem blinkChange_eq (cs : List Nat) (g : Timing) (a : Nat) (r : RegVal) :
    blinkChange cs g a r = if a = 1 then RegVal.full g.steps else if a = 2 then RegVal.full g.code
      else if a = 4 then r.update (groupMask cs) (groupData 2#2 cs) else r := by
  unfold blinkChange
  split <;> simp_all

/-- A body that takes `n` answers and, when they are OK on a powered chip, changes each register by `change`, RESET_CTRL not. -/
structure OkRegs (body : State → Micro) (n : Nat) (change : Nat → RegVal → RegVal) : Prop where
  reg : ∀ s : State, s.okFor n → s.psrcOn = true → s.image.wf = true →
    ∀ a, (body s).state.reg a = change a (s.reg a)
  resetCtrl : ∀ r, change 0 r = r

theorem groupCtrl_okRegs (cs : List Nat) (f : BitVec 2) : OkRegs (groupCtrl cs f) 1 (groupChange cs f) where
  reg s h hp hwf a := by
    rw [groupCtrl_reg cs f hwf, groupChange_eq, landsAt_of_ok hp (h 0 Nat.one_pos)]
    by_cases ha : a = 4 <;> simp [ha]
  resetCtrl _ := rfl

theorem blinkWrites_okRegs (cs : List Nat) (g : Timing) : OkRegs (blinkWrites cs g) 3 (blinkChange cs g) where
  reg s h hp hwf a := by
    rw [blinkWrites_ok_reg cs g h hp hwf, blinkChange_eq]
    by_cases ha : a = 4 <;> simp [ha]
  resetCtrl _ := rfl

/-- CHANNEL_CTRL updated for a group: its members' fields hold the new value, the others what they held (R75, R76). -/
theorem groupUpdate_fields {s u : State} {cs : List Nat} {f : BitVec 2} (h4 : ∀ c ∈ cs, c < 4)
    (h : u.reg 4 = (s.reg 4).update (groupMask cs) (groupData f cs)) :
    (∀ c ∈ cs, u.channelMode c = some f) ∧ (∀ d, d < 4 → d ∉ cs → u.ctrlField d = s.ctrlField d) := by
  refine ⟨fun c hc => ?_, fun d hd hmem => ?_⟩
  · rw [channelMode_eq_some_iff, State.ctrlField, h]
    exact Prod.ext_iff.2 (groupField cs f (s.reg 4) c hc h4)
  · rw [State.ctrlField, State.ctrlField, h]
    exact Prod.ext_iff.2 (update_field _ _ _ d (groupMask_other cs d h4 hd hmem) hd)

theorem members_lt_four {s : State} {t : BitVec 4} {led : Led} (hcfg : cfgValid s.config = true)
    (hled : targetLed s t = some led) : ∀ c ∈ ledMembers led, c < 4 :=
  fun c hc => ((cfgValid_led hcfg (targetLed_mem hled)).2.1 c hc).1

/-! ### Every answer OK -/

section
variable {i : Instr} {led : Led} {body : State → Micro} {n : Nat} {es : List Event} {change : Nat → RegVal → RegVal}
  {s : State} {a b c d : Millis}

/-- The registers after a SET_BLINK that ends with such a body, every answer OK: the body's changes, RESET_CTRL by the wake and
the sleep, or no values after a power-down that does not retain them (R41, R79). -/
theorem gatedBlink_allOk_regs (hexec : exec i s = .next ((gatedBlink body s).conclude a b c d))
    (hframe : BlinkBody led body) (hb : OkBody led body n es id) (hr : OkRegs body n change) (hwf : s.image.wf = true)
    (hp : s.poweredFor s.ledBright) (h : s.okFor (n + 4)) :
    ∃ u, exec i s = .next u ∧
      (s.keepsImage s.ledBright →
        (∀ x, x ≠ 0 → u.reg x = change x (s.reg x)) ∧ u.reg 0 = s.resetCtrlAfter s.ledBright) ∧
      (¬s.keepsImage s.ledBright → ∀ x, u.reg x = RegVal.noValue) ∧
      u.chipMode = s.chipModeAfter s.ledBright := by
  have hrun : gatedBlink body s = done ((body (s.bodyStart s.ledBright)).state.poweredDown (s.mustSleep s.ledBright)) :=
    gated_okBody hb s.ledBright h
  rw [hrun, conclude_done] at hexec
  have hstart : (s.bodyStart s.ledBright).okFor (n + 2) := bodyStart_okFor h
  have hbody := State.okFor_mono hstart (Nat.le_add_right n 2)
  obtain ⟨hon, hwf', _, hmode, hreg⟩ := bodyStart_facts (wakeDraws_okFor (bNew := s.ledBright) h) hp hwf
  have hend : (body (s.bodyStart s.ledBright)).state.okFor 2 := fun k hk => by
    rw [hb.drawAt _ hbody]
    exact hstart _ (by omega)
  have hcfg : (body (s.bodyStart s.ledBright)).state.config = s.config := (hb.config _).trans (bodyStart_config ..)
  have hwritten := hr.reg _ hbody hon hwf'
  refine ⟨_, hexec, fun hkeep => ?_, fun hlost x => ?_, ?_⟩
  · have hslept := poweredDown_reg_of_kept hend ((hframe.psrcOn _).trans hon) (hframe.wf _ hwf') (by rwa [hcfg])
    refine ⟨fun x hx => ?_, ?_⟩
    · rw [reg_respond, hslept, if_neg fun hc => hx hc.2, hwritten, hreg, if_neg fun hc => hx hc.2]
    · rw [reg_respond, hslept, hwritten, hr.resetCtrl, hreg, State.resetCtrlAfter]
      simp
  · simp only [State.keepsImage, not_or, Bool.not_eq_false, Bool.not_eq_true] at hlost
    obtain ⟨hsleep, hret⟩ := hlost
    rw [hsleep]
    exact slept_reg_of_lost hend (by rwa [hcfg]) x
  · rw [State.respond_chipMode, poweredDown_chipMode hend, hframe.chipMode, hmode]
    rfl

end

/-- Settles O31: `gatedBlink_allOk_regs` with the general path's writes. -/
theorem blinkGeneralRegisters : Obligations.BlinkGeneralRegisters := by
  intro s t on off led hl hcfg hwf hled hon hoff hp h
  obtain ⟨u, hexec, hkept, hlost, hmode⟩ := gatedBlink_allOk_regs (exec_blinkGeneral hl hled hon hoff)
    (blinkWrites_blinkBody led on off s) (blinkWrites_okBody led on off s) (blinkWrites_okRegs _ _) hwf hp h
  refine ⟨u, hexec, fun hkeep => ?_, hlost, hmode⟩
  obtain ⟨hreg, hreset⟩ := hkept hkeep
  obtain ⟨hmembers, hothers⟩ := groupUpdate_fields (members_lt_four hcfg hled) (hreg 4 (by decide))
  refine ⟨hreg 1 (by decide), hreg 2 (by decide), hmembers, hothers, fun a h0 h1 h2 h4 => ?_, hreset⟩
  rw [hreg a h0, blinkChange_eq, if_neg h1, if_neg h2, if_neg h4]

/-- Settles O36: `gatedBlink_allOk_regs` with the one update of the always-on path. -/
theorem blinkAlwaysOnRegisters : Obligations.BlinkAlwaysOnRegisters := by
  intro s t on led hl hcfg hwf hled hon hp h
  obtain ⟨u, hexec, hkept, hlost, hmode⟩ := gatedBlink_allOk_regs (exec_blinkAlwaysOn hl hled hon)
    (groupCtrl_blinkBody led) (groupCtrl_okBody led) (groupCtrl_okRegs _ _) hwf hp h
  refine ⟨u, hexec, fun hkeep => ?_, hlost, hmode⟩
  obtain ⟨hreg, hreset⟩ := hkept hkeep
  obtain ⟨hmembers, hothers⟩ := groupUpdate_fields (members_lt_four hcfg hled) (hreg 4 (by decide))
  refine ⟨hmembers, hothers, fun a h0 h4 => ?_, hreset⟩
  rw [hreg a h0, groupChange_eq, if_neg h4]

/-! ### The first answer ERR (R92, R99, R100) -/

section
variable {i : Instr} {led : Led} {body : State → Micro} {s : State} {a b c d : Millis} {k : Nat}

/-- A BusError in such a body ends the request with the error times: what the body left stands, nothing is powered down, and the
brightnesses are as before (R99, R100). -/
theorem gatedBlink_busError (hexec : exec i s = .next ((gatedBlink body s).conclude a b c d)) (hb : BlinkBody led body)
    (hwake : s.okFor (s.wakeDraws s.ledBright)) (hwf : s.image.wf = true) (hp : s.poweredFor s.ledBright)
    (hraised : (body (s.bodyStart s.ledBright)).raised = some .bus) :
    ∃ u, exec i s = .next u ∧ s.Answers u ⟨.busError, c, d⟩ ∧
      u.trace = (body (s.bodyStart s.ledBright)).state.trace ∧
      (∀ x, u.reg x = (body (s.bodyStart s.ledBright)).state.reg x) ∧
      u.chipMode = (if s.mustWake s.ledBright then .awake else s.chipMode) ∧
      u.ledBright = s.ledBright ∧ u.chBright = s.chBright ∧ u.enabled = (s.enabled || s.mustWake s.ledBright) ∧
      u.psrcOn = true ∧ u.lifecycle = s.lifecycle ∧ u.config = s.config ∧ u.pending = s.pending := by
  rw [gatedBlink, gated_of_body_raised hwake hraised, conclude_raise] at hexec
  obtain ⟨hon, _, _, hmode, _⟩ := bodyStart_facts hwake hp hwf
  obtain ⟨hcfg, hlc, hlb, hresp, hpend, _⟩ := acts_frame (hb.acts (s.bodyStart s.ledBright))
  refine ⟨_, hexec, ?_, rfl, fun _ => rfl, (hb.chipMode _).trans hmode, hlb.trans (bodyStart_ledBright ..),
    (hb.chBright _).trans (bodyStart_chBright ..), (hb.enabled _).trans (bodyStart_enabled ..),
    (hb.psrcOn _).trans hon, hlc.trans (bodyStart_lifecycle ..), hcfg.trans (bodyStart_config ..),
    hpend.trans (bodyStart_pending ..)⟩
  rw [State.Answers, State.respond_responses, hresp, bodyStart_responses]
  rfl

/-- The registers after the general path's writes whose `k`-th is the first answered ERR (R91, R100). -/
theorem blinkWrites_err_reg (cs : List Nat) (g : Timing) {bNew : List Byte} (hwf : s.image.wf = true)
    (hp : s.poweredFor bNew) (hok : s.okFor (s.wakeDraws bNew + k)) (herr : (s.drawAt (s.wakeDraws bNew + k)).result = .err)
    (x : Nat) : (blinkWrites cs g (s.bodyStart bNew)).state.reg x =
      if x = 1 ∧ s.wrote (s.wakeDraws bNew) k 0 = true then RegVal.full g.steps
      else if x = 2 ∧ s.wrote (s.wakeDraws bNew) k 1 = true then RegVal.full g.code
      else if x = 4 ∧ s.wrote (s.wakeDraws bNew) k 2 = true then (s.reg 4).update (groupMask cs) (groupData 2#2 cs)
      else if s.mustWake bNew = true ∧ x = 0 then RegVal.full 0x00#8 else s.reg x := by
  obtain ⟨hon, hwf', _, _, hreg⟩ := bodyStart_facts (State.okFor_mono hok (Nat.le_add_right _ k)) hp hwf
  have hwrote := issued_and_landed_iff hon (bodyStart_drawAt s bNew) hok herr
  have hfirst : (s.bodyStart bNew).landsAt 0 = true ↔ s.wrote (s.wakeDraws bNew) k 0 = true :=
    (and_iff_right fun j hj => absurd hj (Nat.not_lt_zero j)).symm.trans (hwrote 0)
  have hctrl : (s.bodyStart bNew).reg 4 = s.reg 4 := by simp [hreg]
  simp only [blinkWrites_reg cs g hwf', hfirst, hwrote, hctrl, hreg]

/-- The registers after a GROUP_CTRL answered ERR (R76, R100). -/
theorem groupCtrl_err_reg (cs : List Nat) (f : BitVec 2) {bNew : List Byte} (hwf : s.image.wf = true)
    (hp : s.poweredFor bNew) (hok : s.okFor (s.wakeDraws bNew)) (herr : (s.drawAt (s.wakeDraws bNew)).result = .err)
    (x : Nat) : (groupCtrl cs f (s.bodyStart bNew)).state.reg x =
      if x = 4 ∧ s.wrote (s.wakeDraws bNew) 0 0 = true then (s.reg 4).update (groupMask cs) (groupData f cs)
      else if s.mustWake bNew = true ∧ x = 0 then RegVal.full 0x00#8 else s.reg x := by
  obtain ⟨hon, hwf', _, _, hreg⟩ := bodyStart_facts hok hp hwf
  have hwrote : (s.bodyStart bNew).landsAt 0 = true ↔ s.wrote (s.wakeDraws bNew) 0 0 = true :=
    (and_iff_right fun j hj => absurd hj (Nat.not_lt_zero j)).symm.trans
      (issued_and_landed_iff hon (bodyStart_drawAt s bNew) hok herr 0)
  have hctrl : (s.bodyStart bNew).reg 4 = s.reg 4 := by simp [hreg]
  simp only [groupCtrl_reg cs f hwf', hwrote, hctrl, hreg]

end

/-- Settles O32: the body raises at its `k`-th transaction (`blinkWrites_err`, `groupCtrl_raised`), and that ends the request
(`gatedBlink_busError`). -/
theorem blinkBusErrorLeavesPartialUpdate : Obligations.BlinkBusErrorLeavesPartialUpdate := by
  intro s t on off led w k hl hwf hled hon hp hw hok herr hk
  subst hw
  have hwake := State.okFor_mono hok (Nat.le_add_right _ k)
  obtain ⟨_, _, hstart, _⟩ := bodyStart_facts hwake hp hwf
  have herr' : ((s.bodyStart s.ledBright).drawAt k).result = .err := by rw [bodyStart_drawAt, Nat.add_comm, herr]
  rcases hk with ⟨hoff, hk⟩ | ⟨hoff, rfl⟩
  · have hbefore : (s.bodyStart s.ledBright).okFor k := fun j hj => by
      rw [bodyStart_drawAt]
      exact hok _ (by omega)
    obtain ⟨hraised, htrace⟩ := blinkWrites_err (ledMembers led) (blinkTiming on off s) k hk hbefore herr'
    obtain ⟨u, hexec, hans, htr, hu, hframe⟩ := gatedBlink_busError (exec_blinkGeneral hl hled hon hoff)
      (blinkWrites_blinkBody led on off s) hwake hwf hp hraised
    have hreg (x : Nat) := (hu x).trans (blinkWrites_err_reg _ _ hwf hp hok herr x)
    rw [htrace, hstart] at htr
    refine ⟨u, hexec, hans, fun _ => ⟨htr, ?_, ?_, ?_⟩, fun h => absurd h hoff, fun x h0 h1 h2 h4 => ?_, ?_, hframe⟩
    · simpa using hreg 1
    · simpa using hreg 2
    · simpa using hreg 4
    · simpa [h0, h1, h2, h4] using hreg x
    · simpa using hreg 0
  · have hraised : (groupCtrl (ledMembers led) 1#2 (s.bodyStart s.ledBright)).raised = some .bus := by
      rw [groupCtrl_raised, herr']
      rfl
    subst hoff
    obtain ⟨u, hexec, hans, htr, hu, hframe⟩ := gatedBlink_busError (exec_blinkAlwaysOn hl hled hon)
      (groupCtrl_blinkBody led) hwake hwf hp hraised
    have hreg (x : Nat) := (hu x).trans (groupCtrl_err_reg _ _ hwf hp hwake herr x)
    rw [groupCtrl_state, busUpdate_trace, State.nextDraw_eq, herr', hstart] at htr
    refine ⟨u, hexec, hans, fun h => absurd rfl h, fun _ => ⟨htr, ?_, ?_, ?_⟩, fun x h0 _ _ h4 => ?_, ?_, hframe⟩
    · simpa using hreg 1
    · simpa using hreg 2
    · simpa using hreg 4
    · simpa [h0, h4] using hreg x
    · simpa using hreg 0

end Sys2Proof.Machine
end

section
/-! PROOFS. The output view under SET_BLINK: an output by its control field, the blink timing that channels share, and the
always-on path at brightness 0 (60_exceptions.md R108, R109; 70_reset_and_hazards.md R120, R121).  Which commands make the
chip awake is the model's record (log 11). -/

namespace Sys2Proof.Machine

open Sys2Proof

/-! ### The output by the control field (R108, R109) -/

theorem RegVal.value?_full (v : Byte) : (RegVal.full v).value? = some v := rfl

theorem blinkPeriod_of_range {n : Byte} (h1 : 1 ≤ n.toNat) (h2 : n.toNat ≤ 126) :
    blinkPeriod n = some (periodMs n.toNat) := if_pos ⟨h1, h2⟩

section
variable {s : State} {c : Nat}

theorem chipPower_of_unpowered (hp : s.psrcOn = false) : s.chipPower = .unpowered := by
  simp [State.chipPower, hp]

theorem chipPower_of_asleep (hp : s.psrcOn = true) (hm : s.chipMode = .asleep) : s.chipPower = .asleep := by
  simp [State.chipPower, hp, hm]

theorem chipPower_of_awake (hp : s.psrcOn = true) (hm : s.chipMode = .awake) : s.chipPower = .awake := by
  simp [State.chipPower, hp, hm]

theorem channelOutput_of_dark (hc : c < s.config.channelCount)
    (h : s.chipPower = .unpowered ∨ s.chipPower = .asleep ∨ s.chipPower = .resetting) : s.channelOutput c = .off := by
  rw [State.channelOutput, if_pos hc, State.presentOutput]
  rcases h with h | h | h <;> rw [h]

theorem channelOutput_of_awake (hc : c < s.config.channelCount) (h : s.chipPower = .awake) :
    s.channelOutput c = s.awakeOutput c := by
  rw [State.channelOutput, if_pos hc, State.presentOutput, h]

theorem awakeOutput_of_off (h : s.channelMode c = some 0#2) : s.awakeOutput c = .off := by
  rw [State.awakeOutput, h]
  rfl

theorem awakeOutput_of_alwaysOn (h : s.channelMode c = some 1#2) :
    s.awakeOutput c = .steady (s.reg (6 + c)).value? := by
  rw [State.awakeOutput, h]
  rfl

theorem awakeOutput_of_pattern1 (h : s.channelMode c = some 2#2) : s.awakeOutput c = s.blinkOutput c := by
  rw [State.awakeOutput, h]
  rfl

/-- Only a channel of an awake chip blinks (R109). -/
theorem awake_of_blink {p : Option Nat} {duty code : Option Byte} (h : s.channelOutput c = .blink p duty code) :
    c < s.config.channelCount ∧ s.chipPower = .awake := by
  rw [State.channelOutput] at h
  split at h
  · rename_i hc
    refine ⟨hc, ?_⟩
    rw [State.presentOutput] at h
    cases hpower : s.chipPower with
    | awake => rfl
    | _ =>
      rw [hpower] at h
      cases h
  · cases h

/-- A blink has the timing of REG[1] and REG[2] and the level of the channel's current register (R108). -/
theorem blinkOutput_of_blink {p : Option Nat} {duty code : Option Byte} (h : s.channelOutput c = .blink p duty code) :
    s.blinkOutput c = .blink p duty code := by
  obtain ⟨hc, hawake⟩ := awake_of_blink h
  rw [← awakeOutput_of_pattern1 (channelMode_of_blink h), ← channelOutput_of_awake hc hawake, h]

end

/-- Settles O51, by the equations of the output for each control field and power state. -/
theorem outputFollowsControlField : Obligations.OutputFollowsControlField := by
  intro s c hc
  refine ⟨fun hp hm => ?_, channelOutput_of_dark hc, chipPower_of_unpowered, chipPower_of_asleep⟩
  rw [channelOutput_of_awake hc (chipPower_of_awake hp hm)]
  refine ⟨awakeOutput_of_off, fun h1 => ⟨_, awakeOutput_of_alwaysOn h1, fun code hcode => ?_⟩, fun h2 =>
    ⟨_, _, _, awakeOutput_of_pattern1 h2, fun n hn hlo hhi => ?_, fun n hn => ?_, fun code hcode => ?_⟩⟩
  · rw [hcode, RegVal.value?_full]
  · rw [hn, RegVal.value?_full, Option.bind_some, blinkPeriod_of_range hlo hhi, periodMs]
  · rw [hn, RegVal.value?_full]
  · rw [hcode, RegVal.value?_full]

/-! ### SET_BLINK on an awake chip with some LED active (R120, R121) -/

section
variable {i : Instr} {led : Led} {body : State → Micro} {n : Nat} {es : List Event} {change : Nat → RegVal → RegVal}
  {s : State} {a b c d : Millis}

/-- There the request is its body alone: every answer OK, it makes the body's changes and leaves the chip awake. -/
theorem gatedBlink_active_regs (hexec : exec i s = .next ((gatedBlink body s).conclude a b c d))
    (hframe : BlinkBody led body) (hb : OkBody led body n es id) (hr : OkRegs body n change) (hwf : s.image.wf = true)
    (he : s.enabled = true) (hp : s.psrcOn = true) (hm : s.chipMode = .awake) (hact : s.active = true) (h : s.okFor n) :
    ∃ u, exec i s = .next u ∧ (∀ x, u.reg x = change x (s.reg x)) ∧ u.chipPower = .awake ∧ u.config = s.config ∧
      u.ledBright = s.ledBright := by
  have hrun : gatedBlink body s = body s := gated_of_enabled_active (s := s) he hact _ _
  rw [hrun, Micro.conclude_eq_respond] at hexec
  obtain ⟨hcfg, _, hlb, _⟩ := acts_frame (hb.acts s)
  exact ⟨_, hexec, hr.reg s h hp hwf, chipPower_of_awake ((hb.psrcOn s).trans hp) ((hframe.chipMode s).trans hm), hcfg, hlb⟩

end

/-- Settles O46: the timing of a blink names no channel (`blinkOutput_of_blink`); the general path writes it, and no field but
its members'. -/
theorem blinkTimingIsShared : Obligations.BlinkTimingIsShared := by
  refine ⟨fun s c d p q onC onD codeC codeD hc hd => ?_, ?_⟩
  · obtain ⟨hp, hduty, _⟩ := Output.blink.inj (blinkOutput_of_blink hc)
    obtain ⟨hq, hduty', _⟩ := Output.blink.inj (blinkOutput_of_blink hd)
    exact ⟨hp.symm.trans hq, hduty.symm.trans hduty'⟩
  · intro s t on off led d hl hcfg hwf he hp hm hled hon hoff hact h hd hmem hmode
    obtain ⟨u, hexec, hreg, hawake, hconfig, _⟩ := gatedBlink_active_regs (exec_blinkGeneral hl hled hon hoff)
      (blinkWrites_blinkBody led on off s) (blinkWrites_okBody led on off s) (blinkWrites_okRegs _ _) hwf he hp hm hact h
    obtain ⟨_, _, hn, _⟩ := cfgValid_led hcfg (targetLed_mem hled)
    have hfield : u.ctrlField d = s.ctrlField d :=
      (groupUpdate_fields (members_lt_four hcfg hled) (hreg 4)).2 d (by omega) hmem
    have hmode' : u.channelMode d = some 2#2 := by
      rw [channelMode_eq_some_iff, hfield]
      exact (channelMode_eq_some_iff ..).1 hmode
    have hlevel : u.reg (6 + d) = s.reg (6 + d) := by
      rw [hreg, blinkChange_eq, if_neg (by omega), if_neg (by omega), if_neg (by omega)]
    have hperiod : u.reg 1 = RegVal.full (blinkTiming on off s).steps := hreg 1
    have hduty : u.reg 2 = RegVal.full (blinkTiming on off s).code := hreg 2
    obtain ⟨hlo, hhi⟩ := blinkTiming_steps_bounds on off s
    refine ⟨u, hexec, hfield, ?_⟩
    rw [channelOutput_of_awake (hconfig ▸ hd) hawake, awakeOutput_of_pattern1 hmode', State.blinkOutput, hperiod, hduty,
      hlevel, RegVal.value?_full, RegVal.value?_full, Option.bind_some, blinkPeriod_of_range hlo hhi]

/-- Settles O47: the always-on path writes the members' fields and no current register. -/
theorem alwaysOnLightsBrightnessZero : Obligations.AlwaysOnLightsBrightnessZero := by
  refine ⟨rfl, ?_⟩
  intro s t on led c hl hcfg hwf he hp hm hled hon hact h hc
  obtain ⟨u, hexec, hreg, hawake, hconfig, hlb⟩ := gatedBlink_active_regs (exec_blinkAlwaysOn hl hled hon)
    (groupCtrl_blinkBody led) (groupCtrl_okBody led) (groupCtrl_okRegs _ _) hwf he hp hm hact h
  have hcount : c < u.config.channelCount := hconfig ▸ ((cfgValid_led hcfg (targetLed_mem hled)).2.1 c hc).2.2
  have hmode : u.channelMode c = some 1#2 := (groupUpdate_fields (members_lt_four hcfg hled) (hreg 4)).1 c hc
  have hlevel : u.reg (6 + c) = s.reg (6 + c) := by
    rw [hreg, groupChange_eq, if_neg (by omega)]
  have hout : u.channelOutput c = .steady (s.reg (6 + c)).value? := by
    rw [channelOutput_of_awake hcount hawake, awakeOutput_of_alwaysOn hmode, hlevel]
  refine ⟨u, hexec, hmode, hlb, hout, fun hzero => ?_⟩
  rw [hout, hzero, RegVal.value?_full]

end Sys2Proof.Machine
end

section
/-! PROOFS. The chip lifecycle: the LEDs of a valid configuration, the reset write that every lifecycle request starts with, and
what ATTACH, DETACH and SHUTDOWN leave (44_lifecycle.md R94 to R97; 20_memory.md R39). -/

namespace Sys2Proof.Machine

open Sys2Proof

/-! ### The LEDs of a valid configuration (R94) -/

/-- Each LED names a channel at least. -/
theorem ledCount_le_namedChannels {p : Params} (h : cfgValid p = true) : p.ledCount ≤ (namedChannels p.leds).length := by
  have hone : ∀ n ∈ p.leds.map fun led => (ledMembers led).length, 1 ≤ n := by
    intro n hn
    obtain ⟨led, hled, rfl⟩ := List.mem_map.1 hn
    exact List.length_pos_iff.2 (ledMembers_ne_nil h hled)
  calc p.ledCount = (p.leds.map fun led => (ledMembers led).length).length := (List.length_map _).symm
    _ ≤ (p.leds.map fun led => (ledMembers led).length).sum := List.length_le_sum_of_one_le _ hone
    _ = (namedChannels p.leds).length := List.length_flatMap.symm

/-- The channels named are distinct channels of the chip. -/
theorem namedChannels_length_le {p : Params} (h : cfgValid p = true) :
    (namedChannels p.leds).length ≤ p.channelCount := by
  have hnodup : (namedChannels p.leds).Nodup := by
    simp only [cfgValid, Bool.and_eq_true, decide_eq_true_eq] at h
    obtain ⟨⟨-, hnodup⟩, -⟩ := h
    exact hnodup
  have hsub : namedChannels p.leds ⊆ List.range p.channelCount := by
    intro c hc
    obtain ⟨led, hled, hmem⟩ := List.mem_flatMap.1 hc
    obtain ⟨-, hchannels, -⟩ := cfgValid_led h hled
    obtain ⟨-, -, hlt⟩ := hchannels c hmem
    exact List.mem_range.2 hlt
  simpa using (hnodup.subperm hsub).length_le

theorem channelCount_le_four {p : Params} (h : cfgValid p = true) : p.channelCount ≤ 4 := by
  simp only [cfgValid, Bool.and_eq_true, Bool.or_eq_true, beq_iff_eq] at h
  omega

/-- Settles O39: count the channels that the LEDs name. -/
theorem validConfigBoundsLedCount : Obligations.ValidConfigBoundsLedCount := fun _ h =>
  ⟨(ledCount_le_namedChannels h).trans (namedChannels_length_le h), channelCount_le_four h⟩

/-! ### The reset write (R37, R39) -/

section
variable (s : State)

@[simp] theorem resetSent_trace : s.resetSent.trace =
    s.trace ++ [.bus .write 0x00#8 0xFF#8 0x07#8 (s.drawAt 0).result] := by
  rw [State.resetSent, busWrite_trace, State.nextDraw_eq]

@[simp] theorem resetSent_drawAt (k : Nat) : s.resetSent.drawAt k = s.drawAt (k + 1) := busWrite_drawAt ..

end

/-- The reset's effect on the registers, in any state that kept the image it left: the defaults where the write took
effect, else no change. -/
theorem regs_of_resetSent_image {s u : State} (h : u.image = s.resetSent.image) :
    (s.effective → ∀ a, a < regCount s.config → u.reg a = RegVal.full (regDefaultAt s.config a)) ∧
    (¬s.effective → u.image = s.image) := by
  have himg : u.image = if s.applies then defaultImage s.config else s.image := h.trans (busWrite_image ..)
  constructor
  · intro heff a ha
    rw [State.reg, himg, if_pos ((applies_iff s).2 heff), read_defaultImage, if_pos ha]
  · intro heff
    rw [himg, if_neg (mt (applies_iff s).1 heff)]

/-! ### ATTACH (R95) -/

theorem attachEnumerate_of_valid {s : State} (h : cfgValid s.config = true) :
    attachEnumerate s = done (settleWait s).initialised := if_pos h

theorem attachEnumerate_of_invalid {s : State} (h : cfgValid s.config = false) :
    attachEnumerate s = raise .config (settleWait s) := if_neg (by simp [h])

section
variable {s : State} (hl : s.lifecycle = .uninit ∨ s.lifecycle = .removed) (on off : Millis)
include hl

theorem exec_attach_busError (herr : (s.drawAt 0).result = .err) :
    exec (.attach on off) s = .next (s.resetSent.respond ⟨.busError, 0#64, 0#64⟩) := by
  have hwrite : (busWrite 0x00#8 0x07#8 s).1 = .err := by rw [busWrite_result, State.nextDraw_eq, herr]
  rw [exec, execAttach_eq hl, orRaise_err hwrite, raise_andThen]
  rfl

/-- Once its reset write is answered OK, ATTACH is its enumeration. -/
theorem exec_attach_of_ok (hok : (s.drawAt 0).result = .ok) :
    exec (.attach on off) s = .next ((attachEnumerate s.resetSent).conclude 0#64 0#64 0#64 0#64) := by
  have hwrite : (busWrite 0x00#8 0x07#8 s).1 = .ok := by rw [busWrite_result, State.nextDraw_eq, hok]
  rw [exec, execAttach_eq hl, orRaise_ok hwrite, done_andThen]
  rfl

theorem exec_attach_configError (hok : (s.drawAt 0).result = .ok) (hcfg : cfgValid s.config = false) :
    exec (.attach on off) s = .next ((settleWait s.resetSent).respond ⟨.configError, 0#64, 0#64⟩) := by
  rw [exec_attach_of_ok hl on off hok, attachEnumerate_of_invalid (by rwa [resetSent_config]), conclude_raise]
  rfl

theorem exec_attach_ok (hok : (s.drawAt 0).result = .ok) (hcfg : cfgValid s.config = true) :
    exec (.attach on off) s = .next ((settleWait s.resetSent).initialised.respond ⟨.ok, 0#64, 0#64⟩) := by
  rw [exec_attach_of_ok hl on off hok, attachEnumerate_of_valid (by rwa [resetSent_config]), conclude_done]

end

theorem anyActive_replicate_zero (n k : Nat) : anyActive n (List.replicate k 0#8) = false := by
  simp [anyActive]

/-- Settles O40: the enumeration after the wait keeps the image that the reset write left. -/
theorem attachCompletes : Obligations.AttachCompletes := by
  intro s on off hl hcfg hok
  obtain ⟨hlo, hhi⟩ := settleUs_bounds s.config
  obtain ⟨heff, hkeep⟩ := regs_of_resetSent_image (s := s) (u := (settleWait s.resetSent).initialised) rfl
  refine ⟨_, exec_attach_ok hl on off hok hcfg, ?_, hlo, hhi, ?_, rfl, rfl, ?_, ?_, anyActive_replicate_zero _ _, ?_, ?_, ?_,
    heff, hkeep⟩ <;> simp [State.initialised, hok]

/-- The two ways ATTACH fails (R95, R99): what it leaves before its answer, and the answer. -/
theorem exec_attach_failure_cases {s : State} (hl : s.lifecycle = .uninit ∨ s.lifecycle = .removed) (on off : Millis)
    (h : (s.drawAt 0).result = .err ∨ cfgValid s.config = false) :
    ((s.drawAt 0).result = .err ∧ exec (.attach on off) s = .next (s.resetSent.respond ⟨.busError, 0#64, 0#64⟩)) ∨
    ((s.drawAt 0).result = .ok ∧
      exec (.attach on off) s = .next ((settleWait s.resetSent).respond ⟨.configError, 0#64, 0#64⟩)) := by
  cases hr : (s.drawAt 0).result with
  | err => exact .inl ⟨rfl, exec_attach_busError hl on off hr⟩
  | ok => exact .inr ⟨rfl, exec_attach_configError hl on off hr (h.resolve_left (by simp [hr]))⟩

/-- Settles O41: in both cases nothing follows the reset write but the wait. -/
theorem attachFailureKeepsBlockState : Obligations.AttachFailureKeepsBlockState := by
  intro s on off hl h
  obtain ⟨heff, hkeep⟩ := regs_of_resetSent_image (s := s) rfl
  rcases exec_attach_failure_cases hl on off h with ⟨hr, hexec⟩ | ⟨hr, hexec⟩
  · refine ⟨_, hexec, ?_, ?_, ?_, ?_, ?_, ?_, ?_, ?_, ?_, heff, hkeep⟩ <;> simp [hr]
  · refine ⟨_, hexec, ?_, ?_, ?_, ?_, ?_, ?_, ?_, ?_, ?_, heff, hkeep⟩ <;> simp [hr]

/-! ### DETACH (R96) -/

theorem detached_of_enabled {s : State} (he : s.enabled = true) :
    s.detached = ((powerDisable s.resetSent).2.setEnabled false).setLifecycle .removed := by
  simp [State.detached, he]

theorem detached_of_disabled {s : State} (he : s.enabled = false) : s.detached = s.resetSent.setLifecycle .removed := by
  simp [State.detached, he]

section
variable (s : State)

theorem detached_trace : s.detached.trace =
    s.trace ++ ([.bus .write 0x00#8 0xFF#8 0x07#8 (s.drawAt 0).result] : List Event) ++
      if s.enabled then [.pwr .disable (s.drawAt 1).result] else [] := by
  cases he : s.enabled with
  | true => simp [detached_of_enabled he, State.nextDraw_eq]
  | false => simp [detached_of_disabled he]

/-- The block is disabled even if the power call fails (R96). -/
theorem detached_enabled : s.detached.enabled = false := by
  cases he : s.enabled with
  | true => rw [detached_of_enabled he]; rfl
  | false => simp [detached_of_disabled he, he]

theorem detached_psrcOn : s.detached.psrcOn = (s.psrcOn && !(s.enabled && (s.drawAt 1).result == .ok)) := by
  cases he : s.enabled with
  | true => cases hr : (s.drawAt 1).result <;> simp [detached_of_enabled he, State.nextDraw_eq, hr]
  | false => simp [detached_of_disabled he]

/-- DETACH writes no brightness and returns nothing before its answer; no request writes the configuration or the waiting
words. -/
theorem detached_frame : s.detached.responses = s.responses ∧ s.detached.ledBright = s.ledBright ∧
    s.detached.chBright = s.chBright ∧ s.detached.config = s.config ∧ s.detached.pending = s.pending := by
  cases he : s.enabled with
  | true => simp [detached_of_enabled he]
  | false => simp [detached_of_disabled he]

end

/-- A power-off that DETACH was granted takes the image as R41 says. -/
theorem detached_image_of_poweredOff {s : State} (he : s.enabled = true) (hr : (s.drawAt 1).result = .ok) :
    s.detached.image = imageAfterPowerOff s.config s.resetSent.image := by
  simp [detached_of_enabled he, State.nextDraw_eq, hr]

/-- Without a power-off, or where the chip retains its registers (R41), the image is the one that the reset write left. -/
theorem detached_image_of_kept {s : State}
    (h : s.enabled = false ∨ (s.drawAt 1).result = .err ∨ s.config.retainOnPowerOff = true) :
    s.detached.image = s.resetSent.image := by
  cases he : s.enabled with
  | false => rw [detached_of_disabled he, State.setLifecycle_image]
  | true =>
    cases hr : (s.drawAt 1).result with
    | err => simp [detached_of_enabled he, State.nextDraw_eq, hr]
    | ok =>
      have hretain : s.config.retainOnPowerOff = true := by simpa [he, hr] using h
      rw [detached_image_of_poweredOff he hr, imageAfterPowerOff, if_pos hretain]

/-- Settles O42: each field of what DETACH leaves; `exec_outside_table` where it is illegal. -/
theorem detachCompletes : Obligations.DetachCompletes := by
  refine ⟨fun s on off hl => ?_, fun s on off hl => ?_⟩
  · obtain ⟨hresp, hled, hch, hcfg, hpend⟩ := detached_frame s
    refine ⟨_, execDetach_eq hl on off, detached_trace s, by simp [hresp], rfl, detached_enabled s, detached_psrcOn s,
      fun he hr hlost a => ?_, fun hkept => regs_of_resetSent_image (detached_image_of_kept hkept), hled, hch, hcfg, hpend⟩
    rw [State.reg, State.respond_image, detached_image_of_poweredOff he hr, imageAfterPowerOff, hlost,
      if_neg Bool.false_ne_true, RegImage.read_empty]
  · exact exec_outside_table rfl (by rcases hl with hl | hl <;> simp [legalLifecycles, hl])

/-! ### SHUTDOWN (R97) -/

/-- Settles O43: SHUTDOWN is its reset write and the change of the lifecycle state; `exec_outside_table` where it is illegal. -/
theorem shutdownCompletes : Obligations.ShutdownCompletes := by
  refine ⟨fun s on off hl => ?_, fun s on off hl => ?_⟩
  · obtain ⟨heff, hkeep⟩ := regs_of_resetSent_image (s := s) rfl
    refine ⟨_, execShutdown_eq hl on off, ?_, ?_, rfl, ?_, ?_, heff, hkeep, ?_, ?_, ?_, ?_⟩ <;> simp
  · exact exec_outside_table rfl (by simpa [legalLifecycles] using hl)

end Sys2Proof.Machine
end

section
/-! PROOFS. Reset and shutdown: the state after reset (10_state.md R32; 70_reset_and_hazards.md R113), what SHUTDOWN leaves and
accepts (R125), and the model's record of the chip's power state (R43, R111; log 11). -/

namespace Sys2Proof.Machine

open Sys2Proof

/-! ### The state after reset (R32, R113) -/

theorem reset_reg (a : Nat) : State.reset.reg a = RegVal.noValue := RegImage.read_empty a

theorem reset_inv : State.reset.Inv where
  imageWf := rfl
  bitsKnown a := by rw [reset_reg]; rfl
  registersOnly a _ := reset_reg a
  ledLength := List.length_replicate
  chLength := List.length_replicate
  configChecked h := absurd rfl h
  enabledWhere h := nomatch h
  enabledPowered h := nomatch h
  enabledMode h := nomatch h
  traceLegal _ h := nomatch h
  hostOnly _ h := nomatch h

/-- Registers without a value are within every range. -/
theorem reset_regsInv : State.reset.RegsInv :=
  (regsInv_iff _).2 ⟨fun a _ _ => .inl (reset_reg a), fun c _ => fieldAdmits_of_noValue _ (reset_reg 4) c⟩

/-- Settles O52, field by field. -/
theorem resetMeetsInvariants : Obligations.ResetMeetsInvariants :=
  ⟨reset_inv, reset_regsInv, rfl, rfl, reset_reg, rfl, rfl⟩

/-! ### After SHUTDOWN (R125) -/

/-- In SHUTDOWN the table of R62 admits DETACH alone. -/
theorem shutdown_mem_legalLifecycles {i : Instr} (h : Lifecycle.shutdown ∈ legalLifecycles i) :
    ∃ on off, i = .detach on off := by
  cases i with
  | detach on off => exact ⟨on, off, rfl⟩
  | _ => simp [legalLifecycles] at h

/-- Settles O44: what SHUTDOWN leaves is O43, what DETACH answers O42, and the table of R62 excludes the rest. -/
theorem afterShutdownOnlyDetach : Obligations.AfterShutdownOnlyDetach := by
  refine ⟨fun s u on off hl heff hexec => ?_, fun i s hl hi => ⟨fun hne => ?_, fun on off heq => ?_⟩⟩
  · obtain ⟨u', hexec', _, _, hlc, hen, _, hreg, _, hlb, _⟩ := shutdownCompletes.1 s on off hl
    obtain rfl := Host.Outcome.next.inj (hexec'.symm.trans hexec)
    exact ⟨hreg heff, hlb, hen, hlc⟩
  · refine exec_outside_table hi fun hmem => ?_
    rw [hl] at hmem
    obtain ⟨on, off, heq⟩ := shutdown_mem_legalLifecycles hmem
    exact hne on off heq
  · obtain ⟨u, hexec, _, hans, _⟩ := detachCompletes.1 s on off (.inr hl)
    exact ⟨u, heq ▸ hexec, hans⟩

/-! ### The record of the chip's power state (R43, R111; log 11) -/

section
variable (s : State)

/-- A RESET_CTRL command sets the record exactly when it takes effect. -/
theorem commandSent_chipMode (v : Byte) :
    (busWrite 0x00#8 v s).2.chipMode = if s.effective then modeAfterWrite 0x00#8 v s.chipMode else s.chipMode := by
  simp only [busWrite_chipMode, applies_iff]

theorem settleWait_chipMode_eq :
    (settleWait s).chipMode = if s.chipMode = .reset then .settled else s.chipMode := by
  rw [settleWait_chipMode]
  cases s.chipMode <;> rfl

end

/-- Only a chip whose last command is the reset can be resetting. -/
theorem chipPower_ne_resetting {s : State} (h : s.chipMode ≠ .reset) : s.chipPower ≠ .resetting := by
  unfold State.chipPower
  split
  · cases hm : s.chipMode with
    | reset => exact absurd hm h
    | _ => simp
  · simp

/-- A WRITE form that completes is the block's own BusWrite, whether or not its register exists (R34, R59). -/
theorem eq_busWrite_of_writeForm {i : Instr} {a v : Byte} {s u : State} (hi : i.writeForm? = some (a, v))
    (h : exec i s = .next u) : u = (busWrite a v s).2 := by
  cases i with
  | wrIled3 code =>
    obtain ⟨rfl, rfl⟩ := Prod.mk.inj (Option.some.inj hi)
    rw [exec_wrIled3] at h
    split at h
    · exact (Host.Outcome.next.inj h).symm
    · cases h
  | sleepCmd | wakeCmd | wrPeriod | wrPwm1 | wrIled0 | wrIled1 | wrIled2 =>
    obtain ⟨rfl, rfl⟩ := Prod.mk.inj (Option.some.inj hi)
    exact (Host.Outcome.next.inj h).symm
  | _ => cases hi

theorem otherWrite_chipMode {i : Instr} {a v : Byte} {s u : State}
    (hi : (i.writeForm? = some (a, v) ∧ a ≠ 0x00#8) ∨ i = .updCtrl a v) (h : exec i s = .next u) :
    u.chipMode = s.chipMode := by
  rcases hi with ⟨hform, hne⟩ | rfl
  · rw [eq_busWrite_of_writeForm hform h, busWrite_chipMode_of_ne hne]
  · obtain rfl := Host.Outcome.next.inj h
    exact busUpdate_chipMode ..

/-- What follows the settle wait in ATTACH writes neither the record nor the trace, whatever CFG_VALID says (R95). -/
theorem attachEnumerate_afterWait (s : State) : (attachEnumerate s).state.chipMode = modeAfterSettle s.chipMode ∧
    (attachEnumerate s).state.trace = s.trace ++ [.wait s.config.settleUs] := by
  cases hcfg : cfgValid s.config with
  | true =>
    rw [attachEnumerate_of_valid hcfg]
    exact ⟨rfl, rfl⟩
  | false =>
    rw [attachEnumerate_of_invalid hcfg]
    exact ⟨rfl, rfl⟩

/-- Settles O45: the equation of each operation that writes the record. -/
theorem chipPowerFollowsCommands : Obligations.ChipPowerFollowsCommands := by
  refine ⟨fun s => ⟨_, _, _, rfl, rfl, rfl, commandSent_chipMode s _, commandSent_chipMode s _, commandSent_chipMode s _⟩,
    fun s u i a v => otherWrite_chipMode, fun s => ?_, fun s => ?_, settleWait_chipMode_eq, fun s on off hl hok => ?_⟩
  · rw [powerDisable_chipMode, State.nextDraw_eq]
  · rw [powerEnable_chipMode, State.nextDraw_eq]
  · refine ⟨_, exec_attach_of_ok hl on off hok, chipPower_ne_resetting ?_⟩
    rw [Micro.conclude_eq_respond, State.respond_chipMode, (attachEnumerate_afterWait _).1]
    exact modeAfterSettle_ne_reset _

end Sys2Proof.Machine
end

section
/-! PROOFS. The settle wait (70_reset_and_hazards.md R116; 44_lifecycle.md R95): every other event takes an answer, and no
instruction but ATTACH emits one that takes none. -/

namespace Sys2Proof.Machine

open Sys2Proof

/-! ### Runs without a wait -/

/-- From `s` to `u` only bus transactions and power calls were appended to the trace. -/
def NoWait (s u : State) : Prop := ∃ es, u.trace = s.trace ++ es ∧ ∀ e ∈ es, e.drawn = true

section
variable {s t u : State}

theorem noWait_of_trace_eq (h : u.trace = s.trace) : NoWait s u := ⟨[], by simpa using h, by simp⟩

theorem NoWait.trans (h : NoWait s t) (h' : NoWait t u) : NoWait s u := by
  obtain ⟨es, htrace, hdrawn⟩ := h
  obtain ⟨es', htrace', hdrawn'⟩ := h'
  exact ⟨es ++ es', by rw [htrace', htrace, List.append_assoc], List.forall_mem_append.2 ⟨hdrawn, hdrawn'⟩⟩

theorem noWait_of_event {e : Event} (he : e.drawn = true) (h : u.trace = s.trace ++ [e]) : NoWait s u :=
  ⟨[e], h, List.forall_mem_singleton.2 he⟩

theorem newEvents_of_trace {es : List Event} (h : u.trace = s.trace ++ es) : s.newEvents u = es := by
  rw [State.newEvents, h, List.drop_left]

theorem NoWait.wait_not_mem (h : NoWait s u) (us : Nat) : .wait us ∉ s.newEvents u := by
  obtain ⟨es, htrace, hdrawn⟩ := h
  rw [newEvents_of_trace htrace]
  exact fun hmem => Bool.false_ne_true (hdrawn _ hmem)

theorem busWrite_noWait (a v : Byte) (s : State) : NoWait s (busWrite a v s).2 := noWait_of_event rfl (busWrite_trace ..)

theorem busUpdate_noWait (a m v : Byte) (s : State) : NoWait s (busUpdate a m v s).2 :=
  noWait_of_event rfl (busUpdate_trace ..)

theorem act_noWait {led : Led} (h : Act led s u) : NoWait s u := by
  cases h with
  | wake | sleep | period | duty | iled => exact busWrite_noWait _ _ s
  | field | fields => exact busUpdate_noWait _ _ _ s
  | enable => exact noWait_of_event rfl (powerEnable_trace s)
  | disable => exact noWait_of_event rfl (powerDisable_trace s)
  | flag | bright => exact noWait_of_trace_eq rfl

theorem acts_noWait {led : Led} (h : Acts led s u) : NoWait s u := by
  induction h with
  | refl => exact noWait_of_trace_eq rfl
  | step _ hact ih => exact ih.trans (act_noWait hact)

theorem resetSent_noWait (s : State) : NoWait s s.resetSent := busWrite_noWait ..

/-! ### Instructions other than ATTACH -/

/-- A bus-transaction form that completes is one transaction (R59). -/
theorem busForm_cases {i : Instr} (hi : i.isRequest = false) (h : exec i s = .next u) :
    (∃ a v, u = (busWrite a v s).2) ∨ ∃ m v, u = (busUpdate 0x04#8 m v s).2 := by
  cases i with
  | resetCmd => exact .inl ⟨_, _, (Host.Outcome.next.inj h).symm⟩
  | updCtrl m v => exact .inr ⟨m, v, (Host.Outcome.next.inj h).symm⟩
  | sleepCmd | wakeCmd | wrPeriod | wrPwm1 | wrIled0 | wrIled1 | wrIled2 | wrIled3 =>
    exact .inl ⟨_, _, eq_busWrite_of_writeForm rfl h⟩
  | _ => cases hi

/-- Where ATTACH is legal, no other request is (R62). -/
theorem attach_of_mayAttach {i : Instr} {l : Lifecycle} (hl : l ∈ legalLifecycles i) (h : mayAttach l = true) :
    ∃ on off, i = .attach on off := by
  have hwhere : l = .uninit ∨ l = .removed := by simpa [mayAttach] using h
  cases i with
  | attach on off => exact ⟨on, off, rfl⟩
  | _ => rcases hwhere with rfl | rfl <;> simp [legalLifecycles] at hl

/-- What a request leaves before its answer where ATTACH is not legal. -/
theorem served_noWait (h : Served s t) (hl : mayAttach s.lifecycle ≠ true) : NoWait s t := by
  cases h with
  | illegal => exact noWait_of_trace_eq rfl
  | gated _ _ hb _ =>
    obtain ⟨es, hes⟩ := acts_noWait (gated_acts (s := s.setLedBright _) hb.acts)
    exact ⟨es, hes⟩
  | unanswered h | misconfigured h | attached h => exact absurd h hl
  | poweredDown => exact (resetSent_noWait s).trans (noWait_of_event rfl (powerDisable_trace _))
  | removed | shutDown => exact resetSent_noWait s

theorem request_noWait {i : Instr} (hi : i.isRequest = true) (hne : ∀ on off, i ≠ .attach on off)
    (h : exec i s = .next u) : NoWait s u := by
  by_cases hlegal : s.lifecycle ∈ legalLifecycles i
  · obtain ⟨t, r, hserved, rfl⟩ := request_served hi h
    have hno : NoWait s t := served_noWait hserved fun hl => by
      obtain ⟨on, off, heq⟩ := attach_of_mayAttach hlegal hl
      exact hne on off heq
    exact hno
  · obtain rfl := Host.Outcome.next.inj ((exec_outside_table hi hlegal).symm.trans h)
    exact noWait_of_trace_eq rfl

theorem exec_noWait {i : Instr} (hne : ∀ on off, i ≠ .attach on off) (h : exec i s = .next u) : NoWait s u := by
  cases hi : i.isRequest with
  | true => exact request_noWait hi hne h
  | false =>
    rcases busForm_cases hi h with ⟨a, v, rfl⟩ | ⟨m, v, rfl⟩
    · exact busWrite_noWait a v s
    · exact busUpdate_noWait _ m v s

/-! ### ATTACH (R95) -/

/-- ATTACH ends before its wait, or its events are the reset write answered OK and the wait. -/
theorem attach_noWait_or_trace {on off : Millis} (h : exec (.attach on off) s = .next u) :
    NoWait s u ∨ u.trace = s.trace ++ [.bus .write 0x00#8 0xFF#8 0x07#8 .ok, .wait s.config.settleUs] := by
  by_cases hl : s.lifecycle = .uninit ∨ s.lifecycle = .removed
  · cases hr : (s.drawAt 0).result with
    | err =>
      obtain rfl := Host.Outcome.next.inj ((exec_attach_busError hl on off hr).symm.trans h)
      exact .inl (resetSent_noWait s)
    | ok =>
      obtain rfl := Host.Outcome.next.inj ((exec_attach_of_ok hl on off hr).symm.trans h)
      right
      rw [Micro.conclude_eq_respond, State.respond_trace, (attachEnumerate_afterWait _).2, resetSent_trace,
        resetSent_config, hr, List.append_assoc]
      rfl
  · obtain rfl := Host.Outcome.next.inj ((exec_outside_table rfl (by simpa [legalLifecycles] using hl)).symm.trans h)
    exact .inl (noWait_of_trace_eq rfl)

end

/-- Settles O59: no other instruction waits (`exec_noWait`), and an ATTACH that waits has two events (`attach_noWait_or_trace`). -/
theorem settleWaitOnlyInAttach : Obligations.SettleWaitOnlyInAttach := by
  intro i s u us h hmem
  obtain ⟨on, off, rfl⟩ : ∃ on off, i = .attach on off := by
    by_contra hne
    exact (exec_noWait (fun on off heq => hne ⟨on, off, heq⟩) h).wait_not_mem us hmem
  have htrace := (attach_noWait_or_trace h).resolve_left fun hno => hno.wait_not_mem us hmem
  rw [newEvents_of_trace htrace] at hmem ⊢
  obtain rfl : us = s.config.settleUs := by simpa using hmem
  obtain ⟨hlo, hhi⟩ := settleUs_bounds s.config
  exact ⟨⟨on, off, rfl⟩, rfl, hlo, hhi, rfl⟩

end Sys2Proof.Machine
end

section
/-! PROOFS. Writes to a disabled, unpowered chip (70_reset_and_hazards.md R118; 20_memory.md R37, R38): while no LED is active, a
request makes no power call and emits its body's writes anyway, each of which lands by its own draw. -/

namespace Sys2Proof.Machine

open Sys2Proof

/-! ### GATED on a disabled chip with no LED active (R79) -/

theorem ensureDisabled_of_disabled {s : State} (he : s.enabled = false) : ensureDisabled s = s := by
  simp [ensureDisabled, he]

/-- A brightness set to 0 activates no LED (R67). -/
theorem anyActive_set_zero_of_inactive {n : Nat} {bs : List Byte} (h : anyActive n bs = false) (i : Nat) :
    anyActive n (bs.set i 0#8) = false := by
  simp only [anyActive, List.any_eq_false, List.take_set] at h ⊢
  intro b hb
  rcases List.mem_or_eq_of_mem_set hb with hmem | rfl
  · exact h b hmem
  · simp

/-- Neither ENSURE_ENABLED nor ENSURE_DISABLED has anything to do. -/
theorem gated_of_disabled_inactive {s : State} {bOld bNew : List Byte} {body : State → Micro} (he : s.enabled = false)
    (hold : anyActive s.config.ledCount bOld = false) (hnew : anyActive s.config.ledCount bNew = false)
    (hbody : (body s).state.enabled = s.enabled) : gated bOld bNew body s = body s := by
  have hdown : ensureDisabled (body s).state = (body s).state := ensureDisabled_of_disabled (hbody.trans he)
  unfold gated
  simp only [hold, hnew, Bool.or_self, Bool.false_eq_true, if_false, done_andThen]
  rcases Micro.andThen_cases (body s) (fun t => done (ensureDisabled t)) with ⟨hnone, h⟩ | ⟨_, _, h⟩
  · rw [h, hdown]
    exact congrArg (Micro.mk (body s).state) hnone.symm
  · exact h

section
variable {i : Instr} {led : Led} {body : State → Micro} {n : Nat} {es : List Event} {store : List Byte → List Byte}
  {s : State} {bNew : List Byte} {a b c d : Millis}

/-- There a request with every answer OK emits its body's events alone, ends OK, and leaves what the body leaves. -/
theorem exec_of_disabled_inactive
    (hexec : exec i s = .next ((gated s.ledBright bNew body (s.setLedBright bNew)).conclude a b c d))
    (hb : OkBody led body n es store) (he : s.enabled = false) (hp : s.psrcOn = false) (hold : s.active = false)
    (hnew : anyActive s.config.ledCount bNew = false) (h : s.okFor n) :
    ∃ u, exec i s = .next u ∧ s.Emits u es ∧ s.Answers u ⟨.ok, a, b⟩ ∧
      (∀ x, u.reg x = (body (s.setLedBright bNew)).state.reg x) ∧ u.enabled = false ∧ u.psrcOn = false := by
  have hrun : gated s.ledBright bNew body (s.setLedBright bNew) = body (s.setLedBright bNew) :=
    gated_of_disabled_inactive he hold hnew (hb.enabled _)
  have hok : (s.setLedBright bNew).okFor n := h
  obtain ⟨_, _, _, hresp, _⟩ := acts_frame (hb.acts (s.setLedBright bNew))
  rw [hrun, Micro.conclude, hb.raised _ hok] at hexec
  exact ⟨_, hexec, hb.trace _ hok, congrArg (· ++ [_]) hresp, fun _ => rfl, (hb.enabled _).trans he,
    (hb.psrcOn _).trans hp⟩

end

/-! ### The bodies on an unpowered chip (R37, R38) -/

/-- Without power an answer says nothing of the effect. -/
theorem landsAt_of_unpowered {s : State} (hp : s.psrcOn = false) (k : Nat) : s.landsAt k = (s.drawAt k).applied := by
  simp [State.landsAt, hp]

section
variable {s : State} (hp : s.psrcOn = false) (hwf : s.image.wf = true)
include hp hwf

/-- LED_WRITE to 0 with every answer OK: each member's current and field by the draws of its own two transactions. -/
theorem ledWrite_zero_unpowered {led : Led} (hcfg : cfgValid s.config = true) (hled : led ∈ s.config.leds)
    (h : s.okFor (2 * (ledMembers led).length)) {u : State} (hu : ∀ x, u.reg x = (ledWrite led 0#8 s).state.reg x) :
    (∀ j c, (ledMembers led)[j]? = some c →
      u.reg (6 + c) = (if (s.drawAt (2 * j)).applied then RegVal.full 0#8 else s.reg (6 + c)) ∧
      ((s.drawAt (2 * j + 1)).applied = true → u.channelMode c = some 0#2) ∧
      ((s.drawAt (2 * j + 1)).applied = false → u.ctrlField c = s.ctrlField c)) ∧
    (∀ d, d < 4 → d ∉ ledMembers led → u.ctrlField d = s.ctrlField d) ∧
    (∀ a, a ≠ 4 → (∀ c ∈ ledMembers led, a ≠ 6 + c) → u.reg a = s.reg a) := by
  obtain ⟨hchan, hnodup⟩ := ledOutputs_channels hcfg hled 0#8
  obtain ⟨hmembers, hfields, hothers⟩ := writeChannels_regs (ledOutputs 0#8 led) hwf hchan hnodup
  rw [ledOutputs_fst] at hfields hothers
  have hctrl := ctrlField_of_reg_eq (hu 4)
  refine ⟨fun j c hj => ?_, fun d hd hmem => (hctrl d).trans (hfields d hd hmem), fun a h4 hmem =>
    (hu a).trans (hothers a h4 hmem)⟩
  have hlt : j < (ledMembers led).length := (List.getElem?_eq_some_iff.1 hj).1
  have hok : s.okFor (2 * j) := State.okFor_mono h (by omega)
  have hok' : s.okFor (2 * j + 1) := State.okFor_mono h (by omega)
  have hpair := hmembers j (c, 0#8) (by rw [ledOutputs_zero, List.getElem?_map, hj]; rfl)
  simp only [and_iff_right hok, and_iff_right hok', landsAt_of_unpowered hp] at hpair
  obtain ⟨hcode, hcode', hmode, hmode'⟩ := hpair
  refine ⟨(hu _).trans ?_, fun hland => ?_, fun hlost => (hctrl c).trans (hmode' (by simp [hlost]))⟩
  · split
    · exact hcode ‹_›
    · exact hcode' ‹_›
  · rw [channelMode_eq_some_iff, hctrl]
    exact (channelMode_eq_some_iff ..).1 (hmode hland)

/-- The general path's writes with every answer OK. -/
theorem blinkWrites_unpowered_reg (cs : List Nat) (g : Timing) (h : s.okFor 3) (x : Nat) :
    (blinkWrites cs g s).state.reg x =
      if x = 1 ∧ (s.drawAt 0).applied = true then RegVal.full g.steps
      else if x = 2 ∧ (s.drawAt 1).applied = true then RegVal.full g.code
      else if x = 4 ∧ (s.drawAt 2).applied = true then (s.reg 4).update (groupMask cs) (groupData 2#2 cs)
      else s.reg x := by
  have h1 : s.okFor 1 := State.okFor_mono h (by omega)
  have h2 : s.okFor 2 := State.okFor_mono h (by omega)
  simp only [blinkWrites_reg cs g hwf, landsAt_of_unpowered hp, and_iff_right h1, and_iff_right h2]

theorem groupCtrl_unpowered_reg (cs : List Nat) (f : BitVec 2) (x : Nat) :
    (groupCtrl cs f s).state.reg x =
      if x = 4 ∧ (s.drawAt 0).applied = true then (s.reg 4).update (groupMask cs) (groupData f cs) else s.reg x := by
  rw [groupCtrl_reg cs f hwf, landsAt_of_unpowered hp]

end

/-- Settles O50: each of the three requests is its body alone (`exec_of_disabled_inactive`), whose writes land by their draws. -/
theorem writesToDisabledChipAreDrawn : Obligations.WritesToDisabledChipAreDrawn := by
  intro s t on off led hl hcfg he hp hact hwf hled
  refine ⟨fun h => ?_, fun hon hoff h => ?_, fun hon h => ?_⟩
  · have hlen : (ledOutputs 0#8 led).length = (ledMembers led).length := by rw [ledOutputs_zero, List.length_map]
    have hrun : exec (.setBrightness t 0#8 on off) s = _ := execSetBrightness_eq hl t 0#8 on off hled
    obtain ⟨u, hexec, htrace, hans, hreg, hen, hpsrc⟩ := exec_of_disabled_inactive hrun (ledWrite_okBody led 0#8) he hp
      hact (anyActive_set_zero_of_inactive hact t.toNat) (by rwa [hlen])
    obtain ⟨hmembers, hfields, hothers⟩ := ledWrite_zero_unpowered
      (s := s.setLedBright (s.ledBright.set t.toNat 0#8)) hp hwf hcfg (targetLed_mem hled) h hreg
    rw [ledOutputs_zero, List.flatMap_map] at htrace
    exact ⟨u, hexec, htrace, hans, hmembers, hfields, hothers, hen, hpsrc⟩
  · obtain ⟨u, hexec, htrace, hans, hreg, hen, hpsrc⟩ := exec_of_disabled_inactive (exec_blinkGeneral hl hled hon hoff)
      (blinkWrites_okBody led on off s) he hp hact hact h
    have hwritten (x : Nat) := (hreg x).trans
      (blinkWrites_unpowered_reg (s := s.setLedBright s.ledBright) hp hwf (ledMembers led) (blinkTiming on off s) h x)
    refine ⟨u, hexec, htrace, hans, ?_, ?_, ?_, fun a h1 h2 h4 => ?_, hen, hpsrc⟩
    · simpa using hwritten 1
    · simpa using hwritten 2
    · simpa using hwritten 4
    · simpa [h1, h2, h4] using hwritten a
  · obtain ⟨u, hexec, htrace, hans, hreg, hen, hpsrc⟩ := exec_of_disabled_inactive (exec_blinkAlwaysOn hl hled hon)
      (groupCtrl_okBody led) he hp hact hact h
    have hwritten (x : Nat) := (hreg x).trans
      (groupCtrl_unpowered_reg (s := s.setLedBright s.ledBright) hp hwf (ledMembers led) 1#2 x)
    refine ⟨u, hexec, htrace, hans, ?_, fun a h4 => ?_, hen, hpsrc⟩
    · simpa using hwritten 4
    · simpa [h4] using hwritten a

end Sys2Proof.Machine
end
